-- ==== Sys2Proof/Word.lean ====
section
/-! DEFINITION. The word types of the intra_predictor_engine: a register, a bus word and a command word are 32 bits
(rules R20, R70, R100); a byte is the unit of the host's byte lanes (rule R71). -/

namespace Sys2Proof

/-- One 32-bit word: a register (R20), a bus transaction's data (R70), a command (R100). -/
abbrev Word := BitVec 32

/-- One byte lane of a bus word (R71). -/
abbrev Byte := BitVec 8

end Sys2Proof
end

