-- ==== Sys2Proof/Syntax.lean ====
section
/-! DEFINITION. The eight commands of IPE-CMD32 (rule R102), one constructor for each row of the opcode table. A block
operand is a block row or a block column, counted in blocks and not in samples (rule R101). -/

namespace Sys2Proof

/-- A command of the opcode map (R102). `br` is the block row operand, `bc` the block column operand. -/
inductive Instr where
  /-- NOP (R142). -/
  | nop
  /-- CLRAV (R143). -/
  | clrav
  /-- ENCB br, bc (R171). -/
  | encb (br bc : Nat)
  /-- DECB br, bc (R244). -/
  | decb (br bc : Nat)
  /-- ENCP (R245). -/
  | encp
  /-- DECP (R246). -/
  | decp
  /-- FDCTB br, bc (R211). -/
  | fdctb (br bc : Nat)
  /-- IDCTB br, bc (R212). -/
  | idctb (br bc : Nat)
deriving DecidableEq, Repr

end Sys2Proof
end

