-- ==== Sys2Proof/WellFormed.lean ====
section
/-! DEFINITION. Which commands have an encoding: a block operand must fit its 12-bit field (rules R100, R109). -/

namespace Sys2Proof

/-- A block operand fits its 12-bit field: "an assembler refuses br or bc outside 0 … 4095" (R109). -/
def fitsField (v : Nat) : Bool := decide (v < 4096)

/-- The commands an assembler accepts (R109). -/
def Instr.wellFormed : Instr → Bool
  | .nop => true
  | .clrav => true
  | .encb br bc => fitsField br && fitsField bc
  | .decb br bc => fitsField br && fitsField bc
  | .encp => true
  | .decp => true
  | .fdctb br bc => fitsField br && fitsField bc
  | .idctb br bc => fitsField br && fitsField bc

end Sys2Proof
end

