-- ==== Sys2Proof/Decode.lean ====
section
/-! DEFINITION. The command word CMD32: its fields (rules R100, R101), the decoder (R102 to R104), total on every word
and naming why a word is illegal (R103), the encoder (R109), and the opcode table's reading of a word. -/

namespace Sys2Proof

/-- Why a command word is illegal (R103). All three end the command with cause BAD_CMD: "every illegal word fails the
same way". -/
inductive DecodeError where
  /-- OPC is one of 0x8 … 0xF (R103 (a)). -/
  | reservedOpcode
  /-- RSV is not 0 (R103 (b)). -/
  | reservedBits
  /-- NOP, CLRAV, ENCP or DECP with a BR or BC that is not 0 (R103 (c)). -/
  | strayOperands
deriving DecidableEq, Repr

/-- `opc = w[3:0]` (R101). -/
def opcField (w : Word) : Nat := (w.extractLsb' 0 4).toNat

/-- `rsv = w[7:4]` (R101). -/
def rsvField (w : Word) : Nat := (w.extractLsb' 4 4).toNat

/-- `bc = zext(w[19:8])` (R101). -/
def bcField (w : Word) : Nat := (w.extractLsb' 8 12).toNat

/-- `br = zext(w[31:20])` (R101). -/
def brField (w : Word) : Nat := (w.extractLsb' 20 12).toNat

/-- A command without operands: its BR and BC must both be 0 (R103 (c)). -/
def noOperands (w : Word) (i : Instr) : Except DecodeError Instr :=
  if brField w = 0 ∧ bcField w = 0 then .ok i else .error .strayOperands

/-- The decoder (R102, R103): total, one word a command, and no mode bit changes how a word decodes (R108). -/
def decode (w : Word) : Except DecodeError Instr :=
  if 8 ≤ opcField w then .error .reservedOpcode
  else if rsvField w ≠ 0 then .error .reservedBits
  else
    match opcField w with
    | 0 => noOperands w .nop
    | 1 => noOperands w .clrav
    | 2 => .ok (.encb (brField w) (bcField w))
    | 3 => .ok (.decb (brField w) (bcField w))
    | 4 => noOperands w .encp
    | 5 => noOperands w .decp
    | 6 => .ok (.fdctb (brField w) (bcField w))
    | 7 => .ok (.idctb (brField w) (bcField w))
    | _ => .error .reservedOpcode

/-- The command word with fields BR, BC, RSV = 0 and OPC, most significant field first (R100). -/
def commandWord (br bc opc : Nat) : Word :=
  BitVec.ofNat 12 br ++ BitVec.ofNat 12 bc ++ 0#4 ++ BitVec.ofNat 4 opc

/-- The encoder (R109): `(br << 20) | (bc << 8) | opcode`. -/
def encode : Instr → Word
  | .nop => commandWord 0 0 0
  | .clrav => commandWord 0 0 1
  | .encb br bc => commandWord br bc 2
  | .decb br bc => commandWord br bc 3
  | .encp => commandWord 0 0 4
  | .decp => commandWord 0 0 5
  | .fdctb br bc => commandWord br bc 6
  | .idctb br bc => commandWord br bc 7

/-- The command word whose bits are `w`, of which only the lowest `nbits` count: every bit above them is 0. -/
def tableWord (nbits w : Nat) : Word := BitVec.ofNat 32 (w % 2 ^ nbits)

/-- What the decoder reads from a word given as the opcode table numbers its bits. A command is one 32-bit word (R100),
so the first word is the whole command. -/
def decodeTableWord (nbits w : Nat) : Option Instr :=
  match decode (tableWord nbits w) with
  | .ok i => some i
  | .error _ => none

end Sys2Proof
end

