-- ==== Sys2Proof/Config.lean ====
section
/-! DEFINITION. What an implementation fixes or the spec leaves open: the buffers by name (rules R40 to R45, R73), the
buffer capacities MAX_W and MAX_H (R9), and the free value of a buffer cell that nothing has written since reset
(R51, entry U1 of 93_implementation_defined.md). -/

namespace Sys2Proof

/-- The six buffers, each with its window on the host bus (R40 to R45, R73). -/
inductive Window where
  | orig | recon | res | coef | mode | avail
deriving DecidableEq, Repr

/-- The open parameters MAX_W and MAX_H: the largest plane width and height the buffers hold (R9). -/
structure Capacity where
  maxW : Nat
  maxH : Nat
deriving DecidableEq, Repr

/-- The constraints R9 puts on MAX_W and MAX_H. -/
abbrev Capacity.Legal (c : Capacity) : Prop :=
  c.maxW % 16 = 0 ∧ 16 ≤ c.maxW ∧ c.maxW ≤ 32768 ∧
  c.maxH % 16 = 0 ∧ 16 ≤ c.maxH ∧ c.maxH ≤ 32768 ∧
  c.maxW * c.maxH ≤ 2 ^ 26

/-- FREE VALUE (R51, U1; log entry 2): what cell `k` of a buffer holds while nothing has written it, after the reset
numbered `epoch`. "A model must treat such a value as a free draw, never as zero." It has no body: no proof can see it.
A cell takes the low bits of its width. -/
opaque Config.unwritten : (buffer : Window) → (epoch k : Nat) → Word

end Sys2Proof
end

