-- ==== Sys2Proof/Machine/State.lean ====
section
/-! DEFINITION. The state of the intra_predictor_engine, as plain data: the registers of rule R20, the buffers of
R40 to R45, the engine's internal state of R47 and R49, the reset input of R320, the open capacities of R9, and the
model's own script of what happens at the host's side of the bus (log entries 4 and 5). -/

namespace Sys2Proof.Machine

/-- A buffer: the cells that have been written since reset, by cell index, indices strictly rising. An unlisted cell
holds no written value (log entry 1). -/
abbrev Buffer (w : Nat) := List (Nat × BitVec w)

/-- The buffers (R40 to R45): cells of 16, 16, 32, 32 and 8 bits, and the availability map as the rising list of the
block indices whose bit is 1. -/
structure Memory where
  /-- ORIG, 16-bit unsigned cells (R40). -/
  orig : Buffer 16
  /-- RECON, 16-bit unsigned cells (R41). -/
  recon : Buffer 16
  /-- RES, 32-bit two's complement cells (R42). -/
  res : Buffer 32
  /-- COEF, 32-bit two's complement cells (R43). -/
  coef : Buffer 32
  /-- MODE, 8-bit cells (R44). -/
  mode : Buffer 8
  /-- AVAIL, 1-bit cells: the indices of the cells that are 1 (R45). -/
  avail : List Nat
deriving DecidableEq, Repr

/-- The canonical form of the memory: in each buffer the indices rise strictly. No entry can equal what an unlisted cell
reads as, for an unlisted cell has no written value (and an unlisted AVAIL cell is 0, a listed one 1). -/
abbrev Memory.wf (m : Memory) : Prop :=
  (m.orig.map Prod.fst).Pairwise (· < ·) ∧ (m.recon.map Prod.fst).Pairwise (· < ·) ∧
  (m.res.map Prod.fst).Pairwise (· < ·) ∧ (m.coef.map Prod.fst).Pairwise (· < ·) ∧
  (m.mode.map Prod.fst).Pairwise (· < ·) ∧ m.avail.Pairwise (· < ·)

/-- The error causes of R282; R294: "A model may represent CAUSE as an enumeration of the twelve values 0 to 11". -/
inductive Cause where
  | none | badCmd | cfg | shape | geometry | blockRange | causality | rewrite | badMode | sampleRange | resRange
  | coefRange
deriving DecidableEq, Repr

/-- The flags of STATUS (R28) that are stored. BUSY is the phase (R47) and is computed from it. -/
structure Status where
  done : Bool
  err : Bool
  drop : Bool
  cause : Cause
deriving DecidableEq, Repr

/-- The prediction modes (R105): the three candidates and the distinct NONE of R164. -/
inductive PredMode where
  | none | diagonal | vertical | horizontal
deriving DecidableEq, Repr

/-- The engine's phase, sweep stage and sweep cursor (R33, R47, R249). Every phase but `idle` is RUNNING. -/
inductive Phase where
  /-- IDLE: no command runs (R47). -/
  | idle
  /-- A command has been accepted and none of its checks has been made (R130). -/
  | start
  /-- A sweep is about to validate block (br, bc): VALIDATE(b) of R249. -/
  | validate (br bc : Nat)
  /-- A sweep is about to clear AVAIL: CLEAR of R249. -/
  | clear
  /-- A sweep is about to process block (br, bc): STEP(b) of R249. -/
  | process (br bc : Nat)
deriving DecidableEq, Repr

/-- The configuration snapshot of R49: the values a running command uses. -/
structure Snapshot where
  /-- CTRL.METRIC: true is SSD (R22). -/
  metric : Bool
  plane : Word
  width : Word
  height : Word
  geom : Word
deriving DecidableEq, Repr

/-- The size of a host transaction (R72): the IPE accepts aligned 32-bit words only. `burst` is a burst the bridge
cannot split into aligned words. -/
inductive AccessSize where
  | byte | half | word | burst
deriving DecidableEq, Repr

/-- A host bus transaction (R70). -/
inductive Txn where
  /-- `MemRead(addr, …)`. -/
  | read (addr : Word) (size : AccessSize)
  /-- `MemWrite(addr, …, value)`. -/
  | write (addr : Word) (size : AccessSize) (value : Word)
deriving DecidableEq, Repr

/-- What a transaction returns to the host (R70). -/
inductive Answer where
  /-- A read returned this word. -/
  | data (w : Word)
  /-- A write completed. -/
  | done
  /-- A bus error: no effect on any IPE state, no data (R70, R299; U4, U5). -/
  | busError
deriving DecidableEq, Repr

/-- What happens next at the IPE's boundary (log entry 4): the interleaving that R340 and U13 leave open, as data. -/
inductive Input where
  /-- The host makes this transaction. -/
  | bus (t : Txn)
  /-- The engine takes its next atomic step (R17). -/
  | engine
  /-- The reset input is asserted (`true`) or released (`false`) (R320). -/
  | reset (asserted : Bool)
deriving DecidableEq, Repr

/-- The state of the IPE. -/
structure State where
  /-- CTRL (R22). -/
  ctrl : Word
  /-- PLANE (R23). -/
  plane : Word
  /-- WIDTH (R24). -/
  width : Word
  /-- HEIGHT (R25). -/
  height : Word
  /-- GEOM (R26). -/
  geom : Word
  /-- LASTCMD, what a read of CMD returns (R27). -/
  lastCmd : Word
  /-- STATUS, but for BUSY (R28). -/
  status : Status
  /-- ERRPOS (R29). -/
  errpos : Word
  /-- NBLK (R30). -/
  nblk : Word
  /-- MODESEL (R31). -/
  modesel : Word
  /-- MET_D (R32). -/
  metD : Word
  /-- MET_V (R32). -/
  metV : Word
  /-- MET_H (R32). -/
  metH : Word
  /-- The buffers (R40 to R45). -/
  mem : Memory
  /-- The engine's phase, sweep stage and cursor (R47). -/
  phase : Phase
  /-- The configuration snapshot (R49). -/
  snap : Snapshot
  /-- MAX_W and MAX_H (R9): parameters, changed by nothing. -/
  capacity : Capacity
  /-- The reset input is asserted (R320). -/
  resetLine : Bool
  /-- The model's own: how many resets there have been, so that each draws its buffer contents anew (log entry 2). -/
  resets : Nat
  /-- The model's own: what happens next at the boundary, the next first (log entry 4). -/
  pending : List Input
  /-- The model's own: the answers the host has been given, the latest first (log entry 5). -/
  answers : List Answer
deriving DecidableEq, Repr

/-- Reasons the machine stops with a fault: THERE ARE NONE. An error ends the command and not the machine (R280), a bus
error is an answer to the host and changes no IPE state (R299), and every command completes (R341): safe, log
entry 9. -/
inductive Fault where
deriving DecidableEq, Repr

/-- Reasons a step has no meaning. -/
inductive Refusal where
  /-- Raised by an arm of `exec` whose instruction has no meaning yet. No arm raises it. Safe. -/
  | notModelled (mnemonic : String)
  /-- Raised by a host transaction while the reset input is asserted: "Bus transactions during reset assertion are not
  defined; the host issues none" (R320; U3: refuse). Safe. -/
  | busDuringReset
deriving DecidableEq, Repr

/-- The buffers after reset: no cell has been written, and every AVAIL cell is 0 (R50, R51). -/
def Memory.reset : Memory := ⟨[], [], [], [], [], []⟩

/-- The machine right after reset (R50, R320, R322). The capacities are log entry 3's, the snapshot log entry 6's. -/
def State.reset : State where
  ctrl := 0#32
  plane := 0#32
  width := 0#32
  height := 0#32
  geom := 0#32
  lastCmd := 0#32
  status := ⟨false, false, false, .none⟩
  errpos := 0#32
  nblk := 0#32
  modesel := 0#32
  metD := 0#32
  metV := 0#32
  metH := 0#32
  mem := Memory.reset
  phase := .idle
  snap := ⟨false, 0#32, 0#32, 0#32, 0#32⟩
  capacity := ⟨32768, 2048⟩
  resetLine := false
  resets := 0
  pending := []
  answers := []

end Sys2Proof.Machine
end

