-- ==== Sys2Proof/Machine/Ops.lean ====
section
/-! DEFINITION. The shared operations: exact integer arithmetic (rules R12, R146, R205), the cells of a buffer and of the
availability map (R40 to R46, R51), command acceptance and completion (R130, R131), the error completion and the return
from it (R281, R298), and the order of checks (R132, R295). -/

namespace Sys2Proof.Machine

/-! ### Arithmetic on exact integers -/

/-- `RND(a, s)`: floor((a + 2^(s-1)) / 2^s), halves toward plus infinity (R12, R205). -/
def rnd (a : Int) (s : Nat) : Int := (a + 2 ^ (s - 1)) / 2 ^ s

/-- `clip(v, lo, hi)` (R12). -/
def clip (v lo hi : Int) : Int := if v < lo then lo else if hi < v then hi else v

/-- The sum of `f 0 … f (n - 1)`, exact (R146). -/
def sumTo : Nat → (Nat → Int) → Int
  | 0, _ => 0
  | n + 1, f => sumTo n f + f n

/-! ### Cells of a buffer -/

/-- The written value of cell `k`, or `none` while nothing has written it since reset. -/
def cellGet {w : Nat} : Buffer w → Nat → Option (BitVec w)
  | [], _ => none
  | (a, v) :: rest, k => if a = k then some v else cellGet rest k

/-- Store `v` into cell `k`, keeping the indices strictly rising. -/
def cellPut {w : Nat} : Buffer w → Nat → BitVec w → Buffer w
  | [], k, v => [(k, v)]
  | (a, x) :: rest, k, v =>
    if k < a then (k, v) :: (a, x) :: rest
    else if k = a then (k, v) :: rest
    else (a, x) :: cellPut rest k v

/-- Store a list of cells, the first first. -/
def putCells {w : Nat} (b : Buffer w) (cells : List (Nat × BitVec w)) : Buffer w :=
  cells.foldl (fun acc c => cellPut acc c.1 c.2) b

/-- Set the availability bit of block cell `b`, keeping the indices strictly rising (R45, R248). -/
def availPut : List Nat → Nat → List Nat
  | [], b => [b]
  | a :: rest, b => if b < a then b :: a :: rest else if b = a then a :: rest else a :: availPut rest b

/-- ORIG[k] (R40); the free draw of R51 while nothing has written it. -/
def State.origCell (s : State) (k : Nat) : BitVec 16 :=
  (cellGet s.mem.orig k).getD ((Config.unwritten .orig s.resets k).setWidth 16)

/-- RECON[k] (R41); the free draw of R51 while nothing has written it. -/
def State.reconCell (s : State) (k : Nat) : BitVec 16 :=
  (cellGet s.mem.recon k).getD ((Config.unwritten .recon s.resets k).setWidth 16)

/-- RES[k] (R42); the free draw of R51 while nothing has written it. -/
def State.resCell (s : State) (k : Nat) : BitVec 32 :=
  (cellGet s.mem.res k).getD (Config.unwritten .res s.resets k)

/-- COEF[k] (R43); the free draw of R51 while nothing has written it. -/
def State.coefCell (s : State) (k : Nat) : BitVec 32 :=
  (cellGet s.mem.coef k).getD (Config.unwritten .coef s.resets k)

/-- MODE[b] (R44); the free draw of R51 while nothing has written it. -/
def State.modeCell (s : State) (b : Nat) : BitVec 8 :=
  (cellGet s.mem.mode b).getD ((Config.unwritten .mode s.resets b).setWidth 8)

/-- AVAIL[b] = 1 (R45). -/
def State.availBit (s : State) (b : Nat) : Bool := s.mem.avail.contains b

/-- Clear the whole AVAIL map (R46). -/
def State.clearAvail (s : State) : State := { s with mem := { s.mem with avail := [] } }

/-! ### The life of a command -/

/-- STATUS.BUSY: "STATUS.BUSY = 1 exactly in RUNNING" (R47). -/
def State.busy (s : State) : Bool := s.phase ≠ .idle

/-- The live configuration, as R49 snapshots it. -/
def State.liveConfig (s : State) : Snapshot :=
  ⟨s.ctrl.getLsbD 0, s.plane, s.width, s.height, s.geom⟩

/-- An accepted command word (R130): LASTCMD latched, DONE and NBLK cleared, BUSY set, the snapshot taken (R49). -/
def State.accept (w : Word) (s : State) : State :=
  { s with
    lastCmd := w
    status := { s.status with done := false }
    nblk := 0#32
    phase := .start
    snap := s.liveConfig }

/-- STATUS.DROP <- 1: a command issue or a configuration write was dropped (R79, R130, R301). -/
def State.dropWrite (s : State) : State := { s with status := { s.status with drop := true } }

/-- A host write of word `w` to CMD (R130). -/
def State.issue (w : Word) (s : State) : State :=
  if s.busy || s.status.err then s.dropWrite else s.accept w

/-- Successful completion: BUSY <- 0, DONE <- 1 (R131). -/
def State.complete (s : State) : State :=
  { s with phase := .idle, status := { s.status with done := true } }

/-- An error as a check reports it: the cause and the block position (R281). -/
structure Failure where
  cause : Cause
  br : Nat
  bc : Nat
deriving DecidableEq, Repr

/-- `(br << 16) | bc`, each half truncated to 16 bits (R29, R281, R287). -/
def positionWord (br bc : Nat) : Word := BitVec.ofNat 16 br ++ BitVec.ofNat 16 bc

/-- THE ERROR COMPLETION `raise Error(CAUSE, br, bc)` (R281): the one exceptional outcome of a command (R280). -/
def State.raise (f : Failure) (s : State) : State :=
  { s with
    phase := .idle
    nblk := 0#32
    errpos := positionWord f.br f.bc
    status := { s.status with cause := f.cause, err := true, done := false } }

/-- THE RETURN FROM AN ERROR (R298): ERR, CAUSE and ERRPOS <- 0, and "no other state changes". -/
def State.clearError (s : State) : State :=
  { s with errpos := 0#32, status := { s.status with err := false, cause := .none } }

/-- The first failing check of a list of checks, each with what it reports (R132, R295). -/
def firstFailure : List (Bool × Failure) → Option Failure
  | [] => none
  | (fails, f) :: rest => if fails then some f else firstFailure rest

/-- Make the checks in order; the first that fails ends the command with its error, and otherwise `ok` is the next
state (R132, R297). -/
def State.checked (s : State) (checks : List (Bool × Failure)) (ok : State) : Host.Outcome State Fault Refusal :=
  match firstFailure checks with
  | some f => .next (s.raise f)
  | none => .next ok

/-! ### The reset event -/

/-- Asserting the reset input (R320): every register at its reset value, AVAIL all 0, the phase IDLE, the buffer cells
unspecified again. The capacities are not state, and the script and the answers belong to the host's side. -/
def State.assertReset (s : State) : State :=
  { State.reset with
    capacity := s.capacity
    resetLine := true
    resets := s.resets + 1
    pending := s.pending
    answers := s.answers }

/-- Releasing the reset input (R320). -/
def State.releaseReset (s : State) : State := { s with resetLine := false }

end Sys2Proof.Machine
end

