-- ==== Sys2Proof/Machine/Operands.lean ====
section
/-! DEFINITION. The block operand, the IPE's one operand form (rules R35, R101): the geometry of R13 from the
configuration snapshot (R49), the cells of a block (R90), a block's content as a matrix of exact integers and the
cells that store one, and the checks on the shape, the recorded geometry, the block range and the causal neighbours (R134 to R141). -/

namespace Sys2Proof.Machine

/-! ### Geometry -/

/-- PLANE.KIND (R23). -/
def Snapshot.kind (c : Snapshot) : Nat := (c.plane.extractLsb' 0 2).toNat

/-- The block size N: 16 for KIND = 0, 8 for KIND 1 and 2 (R133). KIND = 3 names no block size and fails with CFG before
any rule uses one (R132, R284). -/
def Snapshot.n (c : Snapshot) : Nat := if c.kind = 0 then 16 else 8

/-- The bit depth B: 8 for DEPTH = 0, 10 for DEPTH = 1 (R13, R23). -/
def Snapshot.depth (c : Snapshot) : Nat := if c.plane.getLsbD 4 then 10 else 8

/-- `SMAX = 2^B - 1` (R13). -/
def Snapshot.smax (c : Snapshot) : Int := 2 ^ c.depth - 1

/-- W (R13, R24). -/
def Snapshot.w (c : Snapshot) : Nat := (c.width.extractLsb' 0 16).toNat

/-- H (R13, R25). -/
def Snapshot.h (c : Snapshot) : Nat := (c.height.extractLsb' 0 16).toNat

/-- `BCOLS = floor(W / N)` (R13). -/
def Snapshot.bcols (c : Snapshot) : Nat := c.w / c.n

/-- `BROWS = floor(H / N)` (R13). -/
def Snapshot.brows (c : Snapshot) : Nat := c.h / c.n

/-- GEOM.BCOLS_REC (R26). -/
def Snapshot.bcolsRec (c : Snapshot) : Nat := (c.geom.extractLsb' 0 16).toNat

/-- GEOM.BROWS_REC (R26). -/
def Snapshot.browsRec (c : Snapshot) : Nat := (c.geom.extractLsb' 16 16).toNat

/-- The cell index of sample (x, y): `y·W + x` (R13, R90). -/
def Snapshot.sampleIndex (c : Snapshot) (x y : Nat) : Nat := y * c.w + x

/-- The cell index of element (i, j) of block (br, bc): `(br·N + i)·W + (bc·N + j)` (R90). -/
def Snapshot.cellIndex (c : Snapshot) (br bc i j : Nat) : Nat :=
  c.sampleIndex (bc * c.n + j) (br * c.n + i)

/-- The block cell index `b = br·BCOLS + bc` (R13, R90). -/
def Snapshot.blockIndex (c : Snapshot) (br bc : Nat) : Nat := br * c.bcols + bc

/-- The block after (br, bc) in raster order, if there is one (R33, R136). -/
def Snapshot.nextBlock (c : Snapshot) (br bc : Nat) : Option (Nat × Nat) :=
  if bc + 1 < c.bcols then some (br, bc + 1)
  else if br + 1 < c.brows then some (br + 1, 0)
  else none

/-- `CAP = MAX_W·MAX_H` (R9). -/
def capCells (p : Capacity) : Nat := p.maxW * p.maxH

/-- `MAXBLK = (MAX_W/8)·(MAX_H/8)` (R9). -/
def maxBlk (p : Capacity) : Nat := p.maxW / 8 * (p.maxH / 8)

/-! ### Blocks as matrices of exact integers -/

/-- An N×N matrix of exact integers, by rows (R48, R146). -/
abbrev Block := List (List Int)

/-- The n×n matrix whose element (i, j) is `f i j`. -/
def blockOf (n : Nat) (f : Nat → Nat → Int) : Block :=
  (List.range n).map fun i => (List.range n).map fun j => f i j

/-- Element (i, j) of a matrix. -/
def blockAt (b : Block) (i j : Nat) : Int := (b.getD i []).getD j 0

/-- Some element of the n×n matrix satisfies `p`. -/
def anyElement (n : Nat) (b : Block) (p : Int → Bool) : Bool :=
  (List.range n).any fun i => (List.range n).any fun j => p (blockAt b i j)

/-- Block (br, bc) of ORIG, zero-extended (R91). -/
def State.origBlock (s : State) (br bc : Nat) : Block :=
  blockOf s.snap.n fun i j => ((s.origCell (s.snap.cellIndex br bc i j)).toNat : Int)

/-- Block (br, bc) of RES, read as signed integers (R91). -/
def State.resBlock (s : State) (br bc : Nat) : Block :=
  blockOf s.snap.n fun i j => (s.resCell (s.snap.cellIndex br bc i j)).toInt

/-- Block (br, bc) of COEF, read as signed integers (R91). -/
def State.coefBlock (s : State) (br bc : Nat) : Block :=
  blockOf s.snap.n fun i j => (s.coefCell (s.snap.cellIndex br bc i j)).toInt

/-- The cells of block (br, bc) with the elements of `b` as `w`-bit values (R90, R91). -/
def Snapshot.blockCells (c : Snapshot) (w br bc : Nat) (b : Block) : List (Nat × BitVec w) :=
  (List.range c.n).flatMap fun i =>
    (List.range c.n).map fun j => (c.cellIndex br bc i j, BitVec.ofInt w (blockAt b i j))

/-! ### Checks on the configuration and on the operands -/

/-- The shape check of R134. -/
def Snapshot.shapeLegal (c : Snapshot) (p : Capacity) : Bool :=
  decide (1 ≤ c.w) && decide (1 ≤ c.h) && decide (c.w % c.n = 0) && decide (c.h % c.n = 0) &&
    decide (c.w ≤ p.maxW) && decide (c.h ≤ p.maxH)

/-- Steps 3 and 4 of R132: PLANE.KIND = 3 is CFG, an illegal shape is SHAPE. -/
def State.configChecks (s : State) : List (Bool × Failure) :=
  [ (decide (s.snap.kind = 3), ⟨.cfg, 0, 0⟩),
    (!s.snap.shapeLegal s.capacity, ⟨.shape, 0, 0⟩) ]

/-- Step 5 of R132, the geometry check of R140. -/
def State.geometryChecks (s : State) : List (Bool × Failure) :=
  [ (decide (s.snap.bcolsRec ≠ s.snap.bcols) || decide (s.snap.browsRec ≠ s.snap.brows), ⟨.geometry, 0, 0⟩) ]

/-- Step 6 of R132, the block range check of R137. -/
def State.rangeChecks (s : State) (br bc : Nat) : List (Bool × Failure) :=
  [ (decide (s.snap.brows ≤ br) || decide (s.snap.bcols ≤ bc), ⟨.blockRange, br, bc⟩) ]

/-- The causal check of R138: REWRITE, then CAUSALITY for the top, the left and the top-left neighbour. -/
def State.causalChecks (s : State) (br bc : Nat) : List (Bool × Failure) :=
  [ (s.availBit (s.snap.blockIndex br bc), ⟨.rewrite, br, bc⟩),
    (decide (0 < br) && !s.availBit (s.snap.blockIndex (br - 1) bc), ⟨.causality, br, bc⟩),
    (decide (0 < bc) && !s.availBit (s.snap.blockIndex br (bc - 1)), ⟨.causality, br, bc⟩),
    (decide (0 < br) && decide (0 < bc) && !s.availBit (s.snap.blockIndex (br - 1) (bc - 1)),
      ⟨.causality, br, bc⟩) ]

end Sys2Proof.Machine
end

