-- ==== Sys2Proof/Machine/Flags.lean ====
section
/-! DEFINITION. The register words computed from the state: STATUS and its cause codes (rules R28, R282), the mode tags
and MODESEL (R31, R105, R170), and the interrupt output (R300). The IPE has no arithmetic flags (R36, R146). -/

namespace Sys2Proof.Machine

/-- The cause codes of R282. -/
def Cause.code : Cause → BitVec 4
  | .none => 0#4
  | .badCmd => 1#4
  | .cfg => 2#4
  | .shape => 3#4
  | .geometry => 4#4
  | .blockRange => 5#4
  | .causality => 6#4
  | .rewrite => 7#4
  | .badMode => 8#4
  | .sampleRange => 9#4
  | .resRange => 10#4
  | .coefRange => 11#4

/-- STATUS as a read returns it (R28): CAUSE in bits [11:8], DROP, ERR, DONE and BUSY in bits 3 to 0, 0 elsewhere. -/
def State.statusWord (s : State) : Word :=
  0#20 ++ s.status.cause.code ++ 0#4 ++ BitVec.ofBool s.status.drop ++ BitVec.ofBool s.status.err ++
    BitVec.ofBool s.status.done ++ BitVec.ofBool s.busy

/-- The interrupt output (R300): a level, computed from the current register values. -/
def State.irq (s : State) : Bool :=
  (s.status.done && s.ctrl.getLsbD 1) || (s.status.err && s.ctrl.getLsbD 2)

/-- The mode tags of R105. -/
def PredMode.tag : PredMode → BitVec 2
  | .none => 0#2
  | .diagonal => 1#2
  | .vertical => 2#2
  | .horizontal => 3#2

/-- The mode a 2-bit tag stands for (R105): all four tags are assigned (R106). -/
def PredMode.ofTag (t : BitVec 2) : PredMode :=
  match t.toNat with
  | 0 => .none
  | 1 => .diagonal
  | 2 => .vertical
  | _ => .horizontal

/-- MODESEL as R170 and R244 write it: the candidate bits H, V and D at 6, 5 and 4, the mode tag in bits [1:0]. -/
def modeselWord (mode : PredMode) (candidates : List PredMode) : Word :=
  0#25 ++ BitVec.ofBool (candidates.contains .horizontal) ++ BitVec.ofBool (candidates.contains .vertical) ++
    BitVec.ofBool (candidates.contains .diagonal) ++ 0#2 ++ mode.tag

end Sys2Proof.Machine
end

