-- ==== Sys2Proof/Machine/Transform.lean ====
section
/-! DEFINITION. The transform stage: the integer basis tables (rules R200 to R202), the forward and the inverse transform
with their one rounding (R203 to R205, R210), the operand limits (R207, R208), and the commands FDCTB (R211) and
IDCTB (R212). -/

namespace Sys2Proof.Machine

/-- The table `M_8` of R201, row k, column n. -/
def basis8 : Block :=
  [ [23170, 23170, 23170, 23170, 23170, 23170, 23170, 23170],
    [32138, 27246, 18205, 6393, -6393, -18205, -27246, -32138],
    [30274, 12540, -12540, -30274, -30274, -12540, 12540, 30274],
    [27246, -6393, -32138, -18205, 18205, 32138, 6393, -27246],
    [23170, -23170, -23170, 23170, 23170, -23170, -23170, 23170],
    [18205, -32138, 6393, 27246, -27246, -6393, 32138, -18205],
    [12540, -30274, 30274, -12540, -12540, 30274, -30274, 12540],
    [6393, -18205, 27246, -32138, 32138, -27246, 18205, -6393] ]

/-- Rows 0 to 7 of the table `M_16` of R202, row k, column n. -/
def basis16Low : Block :=
  [ [16384, 16384, 16384, 16384, 16384, 16384, 16384, 16384, 16384, 16384, 16384, 16384, 16384, 16384, 16384, 16384],
    [23059, 22173, 20435, 17911, 14699, 10922, 6726, 2271,
      -2271, -6726, -10922, -14699, -17911, -20435, -22173, -23059],
    [22725, 19266, 12873, 4520, -4520, -12873, -19266, -22725,
      -22725, -19266, -12873, -4520, 4520, 12873, 19266, 22725],
    [22173, 14699, 2271, -10922, -20435, -23059, -17911, -6726,
      6726, 17911, 23059, 20435, 10922, -2271, -14699, -22173],
    [21407, 8867, -8867, -21407, -21407, -8867, 8867, 21407, 21407, 8867, -8867, -21407, -21407, -8867, 8867, 21407],
    [20435, 2271, -17911, -22173, -6726, 14699, 23059, 10922,
      -10922, -23059, -14699, 6726, 22173, 17911, -2271, -20435],
    [19266, -4520, -22725, -12873, 12873, 22725, 4520, -19266,
      -19266, 4520, 22725, 12873, -12873, -22725, -4520, 19266],
    [17911, -10922, -22173, 2271, 23059, 6726, -20435, -14699,
      14699, 20435, -6726, -23059, -2271, 22173, 10922, -17911] ]

/-- Rows 8 to 15 of the table `M_16` of R202. -/
def basis16High : Block :=
  [ [16384, -16384, -16384, 16384, 16384, -16384, -16384, 16384,
      16384, -16384, -16384, 16384, 16384, -16384, -16384, 16384],
    [14699, -20435, -6726, 23059, -2271, -22173, 10922, 17911,
      -17911, -10922, 22173, 2271, -23059, 6726, 20435, -14699],
    [12873, -22725, 4520, 19266, -19266, -4520, 22725, -12873,
      -12873, 22725, -4520, -19266, 19266, 4520, -22725, 12873],
    [10922, -23059, 14699, 6726, -22173, 17911, 2271, -20435,
      20435, -2271, -17911, 22173, -6726, -14699, 23059, -10922],
    [8867, -21407, 21407, -8867, -8867, 21407, -21407, 8867, 8867, -21407, 21407, -8867, -8867, 21407, -21407, 8867],
    [6726, -17911, 23059, -20435, 10922, 2271, -14699, 22173,
      -22173, 14699, -2271, -10922, 20435, -23059, 17911, -6726],
    [4520, -12873, 19266, -22725, 22725, -19266, 12873, -4520,
      -4520, 12873, -19266, 22725, -22725, 19266, -12873, 4520],
    [2271, -6726, 10922, -14699, 17911, -20435, 22173, -23059,
      23059, -22173, 20435, -17911, 14699, -10922, 6726, -2271] ]

/-- The table `M_16` of R202. -/
def basis16 : Block := basis16Low ++ basis16High

/-- `M_N` (R200): "a model uses the integers listed there and never evaluates the cosine". -/
def basis (n : Nat) : Block := if n = 16 then basis16 else basis8

/-- `FDCT_N` (R203): the rows pass, the columns pass, and one rounding by 24. -/
def fdct (n : Nat) (r : Block) : Block :=
  let m := basis n
  let t := blockOf n fun i k => sumTo n fun x => blockAt r i x * blockAt m k x
  let u := blockOf n fun k l => sumTo n fun i => blockAt m k i * blockAt t i l
  blockOf n fun k l => rnd (blockAt u k l) 24

/-- `IDCT_N` (R204): the columns pass, the rows pass, and one rounding by 40. -/
def idct (n : Nat) (c : Block) : Block :=
  let m := basis n
  let v := blockOf n fun y l => sumTo n fun k => blockAt m k y * blockAt c k l
  let w := blockOf n fun y x => sumTo n fun l => blockAt v y l * blockAt m l x
  blockOf n fun y x => rnd (blockAt w y x) 40

/-- RES_MAX (R8, R211). -/
def resMax : Int := 1023

/-- COEF_MAX = 2^22 (R8, R208). -/
def coefMax : Int := 4194304

/-- The operand range check of FDCTB (R211): RES_RANGE when some |RES| > 1023. -/
def State.resChecks (s : State) (br bc : Nat) : List (Bool × Failure) :=
  [ (anyElement s.snap.n (s.resBlock br bc) fun v => decide (resMax < |v|), ⟨.resRange, br, bc⟩) ]

/-- The coefficient range check of R212 and R242: COEF_RANGE when some |COEF| > 2^22. -/
def State.coefChecks (s : State) (br bc : Nat) : List (Bool × Failure) :=
  [ (anyElement s.snap.n (s.coefBlock br bc) fun v => decide (coefMax < |v|), ⟨.coefRange, br, bc⟩) ]

/-- The block step of FDCTB (R211): only the block's COEF cells and NBLK. -/
def State.forwardBlock (s : State) (br bc : Nat) : State :=
  { s with
    mem :=
      { s.mem with
        coef := putCells s.mem.coef (s.snap.blockCells 32 br bc (fdct s.snap.n (s.resBlock br bc))) }
    nblk := s.nblk + 1#32 }

/-- The block step of IDCTB (R212): only the block's RES cells and NBLK. -/
def State.inverseBlock (s : State) (br bc : Nat) : State :=
  { s with
    mem :=
      { s.mem with
        res := putCells s.mem.res (s.snap.blockCells 32 br bc (idct s.snap.n (s.coefBlock br bc))) }
    nblk := s.nblk + 1#32 }

/-- FDCTB br, bc (R211). Checks: CFG, SHAPE, BLOCK_RANGE, RES_RANGE. No causal check. -/
def execFdctb (br bc : Nat) (s : State) : Host.Outcome State Fault Refusal :=
  s.checked (s.configChecks ++ s.rangeChecks br bc ++ s.resChecks br bc) (s.forwardBlock br bc).complete

/-- IDCTB br, bc (R212). Checks: CFG, SHAPE, BLOCK_RANGE, COEF_RANGE. No causal check. -/
def execIdctb (br bc : Nat) (s : State) : Host.Outcome State Fault Refusal :=
  s.checked (s.configChecks ++ s.rangeChecks br bc ++ s.coefChecks br bc) (s.inverseBlock br bc).complete

end Sys2Proof.Machine
end

