-- ==== Sys2Proof/Machine/Predict.lean ====
section
/-! DEFINITION. The intra predictor engine: neighbour samples (rule R160), the four predictions (R161 to R164), the
candidate set (R165), residual, metric and selection (R166 to R169), the selection registers (R170), the encode block
step and ENCB (R171), and the reconstruction sum both sides share (R243). -/

namespace Sys2Proof.Machine

/-- The neighbour vectors Tr, Lc and the corner TLc (R48, R160). A vector whose block does not exist is not read. -/
structure Neighbours where
  top : List Int
  left : List Int
  corner : Int
deriving DecidableEq, Repr

/-- RECON of sample (x, y) as an integer, zero-extended (R91). -/
def State.reconSample (s : State) (x y : Nat) : Int := ((s.reconCell (s.snap.sampleIndex x y)).toNat : Int)

/-- The neighbours of block (br, bc), read from RECON and never from ORIG (R160). -/
def State.neighbours (s : State) (br bc : Nat) : Neighbours where
  top := if 0 < br then (List.range s.snap.n).map fun j => s.reconSample (bc * s.snap.n + j) (br * s.snap.n - 1) else []
  left := if 0 < bc then (List.range s.snap.n).map fun i => s.reconSample (bc * s.snap.n - 1) (br * s.snap.n + i) else []
  corner := if 0 < br ∧ 0 < bc then s.reconSample (bc * s.snap.n - 1) (br * s.snap.n - 1) else 0

/-- Element (i, j) of the prediction of a mode: VERTICAL (R161), HORIZONTAL (R162), DIAGONAL (R163), NONE (R164). -/
def predictAt (nb : Neighbours) (i j : Nat) : PredMode → Int
  | .none => 0
  | .vertical => nb.top.getD j 0
  | .horizontal => nb.left.getD i 0
  | .diagonal =>
    if i = j then nb.corner
    else if i < j then nb.top.getD (j - i - 1) 0
    else nb.left.getD (i - j - 1) 0

/-- The prediction of block (br, bc) by a mode: the one rule of the encoder and of the decoder (R161 to R164, R240). -/
def State.prediction (s : State) (mode : PredMode) (br bc : Nat) : Block :=
  let nb := s.neighbours br bc
  blockOf s.snap.n fun i j => predictAt nb i j mode

/-- The candidate set in preference order (R165), a function of the position only (R141). -/
def candidates (br bc : Nat) : List PredMode :=
  (if 0 < br ∧ 0 < bc then [.diagonal] else []) ++
    ((if 0 < br then [.vertical] else []) ++ (if 0 < bc then [.horizontal] else []))

/-- The elementwise difference of two blocks, signed (R166). -/
def blockSub (n : Nat) (a b : Block) : Block := blockOf n fun i j => blockAt a i j - blockAt b i j

/-- The residual-energy metric of R168: SSD when `ssd`, else SAD. -/
def energy (ssd : Bool) (n : Nat) (r : Block) : Int :=
  sumTo n fun i => sumTo n fun j => if ssd then blockAt r i j * blockAt r i j else |blockAt r i j|

/-- Selection (R169): the first candidate, replaced by a later one only when its metric is strictly smaller; NONE for
the empty set. -/
def selectMode (e : PredMode → Int) : List PredMode → PredMode
  | [] => .none
  | m :: rest => rest.foldl (fun best x => if e x < e best then x else best) m

/-- The residual of block (br, bc) under a candidate (R166). -/
def State.candidateResidual (s : State) (br bc : Nat) (mode : PredMode) : Block :=
  blockSub s.snap.n (s.origBlock br bc) (s.prediction mode br bc)

/-- The metric `E_m` of a candidate of block (br, bc) (R168). -/
def State.candidateEnergy (s : State) (br bc : Nat) (mode : PredMode) : Int :=
  energy s.snap.metric s.snap.n (s.candidateResidual br bc mode)

/-- The mode ENCB selects for block (br, bc) (R169). -/
def State.selectedMode (s : State) (br bc : Nat) : PredMode :=
  selectMode (s.candidateEnergy br bc) (candidates br bc)

/-- A metric register after an encode block step: `E_m`, or 0xFFFF_FFFF for an excluded candidate (R170). -/
def State.metricWord (s : State) (br bc : Nat) (mode : PredMode) : Word :=
  if (candidates br bc).contains mode then BitVec.ofInt 32 (s.candidateEnergy br bc mode) else 0xFFFFFFFF#32

/-- The reconstruction sum `clip(P + R', 0, SMAX)` (R243). -/
def State.reconstruct (s : State) (p r : Block) : Block :=
  blockOf s.snap.n fun i j => clip (blockAt p i j + blockAt r i j) 0 s.snap.smax

/-- The sample range check of R167: SAMPLE_RANGE when some ORIG sample > SMAX. -/
def State.sampleChecks (s : State) (br bc : Nat) : List (Bool × Failure) :=
  [ (anyElement s.snap.n (s.origBlock br bc) fun v => decide (s.snap.smax < v), ⟨.sampleRange, br, bc⟩) ]

/-- The residual ENCB stores: ORIG minus the selected prediction (R166, R171). -/
def State.encodeResidual (s : State) (br bc : Nat) : Block :=
  s.candidateResidual br bc (s.selectedMode br bc)

/-- The coefficients ENCB stores: the forward transform of the residual (R171). -/
def State.encodeCoefficients (s : State) (br bc : Nat) : Block := fdct s.snap.n (s.encodeResidual br bc)

/-- The samples ENCB reconstructs in the loop, from the coefficients and not from ORIG (R171, R243). -/
def State.encodeReconstruction (s : State) (br bc : Nat) : Block :=
  s.reconstruct (s.prediction (s.selectedMode br bc) br bc) (idct s.snap.n (s.encodeCoefficients br bc))

/-- The encode block step (R171, from "O <-" to "NBLK <- NBLK + 1"), with the registers of R170. Every value is computed
from the state before the step. -/
def State.encodeBlock (s : State) (br bc : Nat) : State :=
  { s with
    mem :=
      { s.mem with
        res := putCells s.mem.res (s.snap.blockCells 32 br bc (s.encodeResidual br bc))
        coef := putCells s.mem.coef (s.snap.blockCells 32 br bc (s.encodeCoefficients br bc))
        recon := putCells s.mem.recon (s.snap.blockCells 16 br bc (s.encodeReconstruction br bc))
        mode := cellPut s.mem.mode (s.snap.blockIndex br bc) ((s.selectedMode br bc).tag.setWidth 8)
        avail := availPut s.mem.avail (s.snap.blockIndex br bc) }
    metD := s.metricWord br bc .diagonal
    metV := s.metricWord br bc .vertical
    metH := s.metricWord br bc .horizontal
    modesel := modeselWord (s.selectedMode br bc) (candidates br bc)
    nblk := s.nblk + 1#32 }

/-- ENCB br, bc (R171). Checks: CFG, SHAPE, BLOCK_RANGE, REWRITE, CAUSALITY, SAMPLE_RANGE. -/
def execEncb (br bc : Nat) (s : State) : Host.Outcome State Fault Refusal :=
  s.checked (s.configChecks ++ s.rangeChecks br bc ++ s.causalChecks br bc ++ s.sampleChecks br bc)
    (s.encodeBlock br bc).complete

end Sys2Proof.Machine
end

