-- ==== Sys2Proof/Machine/Reconstruct.lean ====
section
/-! DEFINITION. The block reconstruction pipeline: the allowed modes (rule R241), the decode block step and DECB (R244),
and the plane sweeps ENCP (R245) and DECP (R246) as the state machine of R247 and R249, one block check or one block
step at a time (R17; log entry 11). -/

namespace Sys2Proof.Machine

/-- The mode tags allowed at a position: the candidate set, or NONE at (0, 0) (R241). -/
def allowedModes (br bc : Nat) : List PredMode :=
  if br = 0 ∧ bc = 0 then [.none] else candidates br bc

/-- The mode stored for block (br, bc): bits [1:0] of MODE[b] (R106, R240). -/
def State.storedMode (s : State) (br bc : Nat) : PredMode :=
  PredMode.ofTag ((s.modeCell (s.snap.blockIndex br bc)).extractLsb' 0 2)

/-- The mode check of R241: BAD_MODE when bits [7:2] of MODE[b] are not 0 or the tag is not allowed. -/
def State.modeChecks (s : State) (br bc : Nat) : List (Bool × Failure) :=
  [ (decide ((s.modeCell (s.snap.blockIndex br bc)).extractLsb' 2 6 ≠ 0#6) ||
      !(allowedModes br bc).contains (s.storedMode br bc), ⟨.badMode, br, bc⟩) ]

/-- The residual a decode block step stores: the inverse transform of the coefficients (R244 step (1)). -/
def State.decodeResidual (s : State) (br bc : Nat) : Block := idct s.snap.n (s.coefBlock br bc)

/-- The samples a decode block step reconstructs (R244 steps (2) and (3), R243). -/
def State.decodeReconstruction (s : State) (br bc : Nat) : Block :=
  s.reconstruct (s.prediction (s.storedMode br bc) br bc) (s.decodeResidual br bc)

/-- The decode block step (R244, from "m <-" to "NBLK <- NBLK + 1"). The metric registers are left as they are. -/
def State.decodeBlock (s : State) (br bc : Nat) : State :=
  { s with
    mem :=
      { s.mem with
        res := putCells s.mem.res (s.snap.blockCells 32 br bc (s.decodeResidual br bc))
        recon := putCells s.mem.recon (s.snap.blockCells 16 br bc (s.decodeReconstruction br bc))
        avail := availPut s.mem.avail (s.snap.blockIndex br bc) }
    modesel := modeselWord (s.storedMode br bc) (candidates br bc)
    nblk := s.nblk + 1#32 }

/-- DECB br, bc (R244). Checks: CFG, SHAPE, GEOMETRY, BLOCK_RANGE, REWRITE, CAUSALITY, BAD_MODE, COEF_RANGE. -/
def execDecb (br bc : Nat) (s : State) : Host.Outcome State Fault Refusal :=
  s.checked (s.configChecks ++ s.geometryChecks ++ s.rangeChecks br bc ++ s.causalChecks br bc ++
      s.modeChecks br bc ++ s.coefChecks br bc)
    (s.decodeBlock br bc).complete

/-- The phase after validating block (br, bc): the next block in raster order, or CLEAR after the last (R249). -/
def Snapshot.afterValidate (c : Snapshot) (br bc : Nat) : Phase :=
  match c.nextBlock br bc with
  | some (br', bc') => .validate br' bc'
  | none => .clear

/-- A processed block's state moves to the next block in raster order, or completes after the last (R249). -/
def State.afterProcess (s : State) (br bc : Nat) : State :=
  match s.snap.nextBlock br bc with
  | some (br', bc') => { s with phase := .process br' bc' }
  | none => s.complete

/-- One atomic step of a sweep (R247, R249): the command's checks, then VALIDATE block by block with no write, then
CLEAR, then PROCESS block by block in raster order. A block step makes its causal check too, "where it always
passes" (R138). -/
def State.sweep (checks : List (Bool × Failure)) (content : Nat → Nat → List (Bool × Failure))
    (block : Nat → Nat → State) (s : State) : Host.Outcome State Fault Refusal :=
  match s.phase with
  | .idle => s.checked checks { s with phase := .validate 0 0 }
  | .start => s.checked checks { s with phase := .validate 0 0 }
  | .validate br bc => s.checked (content br bc) { s with phase := s.snap.afterValidate br bc }
  | .clear => .next { s.clearAvail with phase := .process 0 0 }
  | .process br bc => s.checked (s.causalChecks br bc ++ content br bc) ((block br bc).afterProcess br bc)

/-- ENCP (R245): CFG and SHAPE, then the sweep with the sample range check and the encode block step. -/
def execEncp (s : State) : Host.Outcome State Fault Refusal :=
  s.sweep s.configChecks s.sampleChecks s.encodeBlock

/-- DECP (R246): CFG, SHAPE and GEOMETRY, then the sweep with the mode check and the coefficient range check, in that
order, and the decode block step. -/
def execDecp (s : State) : Host.Outcome State Fault Refusal :=
  s.sweep (s.configChecks ++ s.geometryChecks) (fun br bc => s.modeChecks br bc ++ s.coefChecks br bc) s.decodeBlock

end Sys2Proof.Machine
end

