-- ==== Sys2Proof/Machine/Control.lean ====
section
/-! DEFINITION. The two control commands: NOP (rule R142) and CLRAV (R143). Neither makes a check beyond BAD_CMD, and
neither needs a legal shape. -/

namespace Sys2Proof.Machine

/-- NOP (R142): nothing, then successful completion. -/
def execNop (s : State) : Host.Outcome State Fault Refusal := .next s.complete

/-- CLRAV (R143): every AVAIL cell <- 0, all MAXBLK of them, then successful completion. -/
def execClrav (s : State) : Host.Outcome State Fault Refusal := .next s.clearAvail.complete

end Sys2Proof.Machine
end

