-- ==== Sys2Proof/Machine/Bus.lean ====
section
/-! DEFINITION. The host bus port: the address map (rules R20, R72 to R74), the registers as a read returns them and as a
write changes them (R21 to R34, R79), the cells of the windows (R75 to R78), and bus errors (R70, R299). -/

namespace Sys2Proof.Machine

/-- What an address names (R73). -/
inductive Target where
  /-- A register, by its offset (R20). -/
  | register (offset : Nat)
  /-- A cell of a window, by its index (R73). -/
  | cell (win : Window) (k : Nat)
  /-- A bus error: a wrong size, a misaligned or an unmapped address (R72 to R74). -/
  | unmapped
deriving DecidableEq, Repr

/-- How many cells a window has (R73). -/
def windowCells (p : Capacity) : Window → Nat
  | .orig => capCells p
  | .recon => capCells p
  | .res => capCells p
  | .coef => capCells p
  | .mode => maxBlk p
  | .avail => maxBlk p

/-- The window whose base is `region · 0x1000_0000` (R73). -/
def windowOf (region : Nat) : Option Window :=
  match region with
  | 1 => some .orig
  | 2 => some .recon
  | 3 => some .res
  | 4 => some .coef
  | 5 => some .mode
  | 6 => some .avail
  | _ => none

/-- The address map of R73: aligned words only (R72), the register block, and the windows up to their capacity (R74). -/
def target (p : Capacity) (addr : Word) (size : AccessSize) : Target :=
  let a := addr.toNat
  if size ≠ .word ∨ a % 4 ≠ 0 then .unmapped
  else if a < 0x1000 then .register a
  else
    match windowOf (a / 0x10000000) with
    | none => .unmapped
    | some win => if a % 0x10000000 / 4 < windowCells p win then .cell win (a % 0x10000000 / 4) else .unmapped

/-- The constant of the ID register (R21). -/
def idValue : Word := 0x49504501#32

/-- A register as a read returns it (R20 to R34); a reserved offset reads as 0. No read has a side effect (R80). -/
def State.readRegister (s : State) (offset : Nat) : Word :=
  match offset with
  | 0x000 => idValue
  | 0x004 => s.ctrl
  | 0x008 => s.plane
  | 0x00C => s.width
  | 0x010 => s.height
  | 0x014 => s.geom
  | 0x018 => s.lastCmd
  | 0x01C => s.statusWord
  | 0x020 => s.errpos
  | 0x024 => s.nblk
  | 0x028 => s.modesel
  | 0x02C => s.metD
  | 0x030 => s.metV
  | 0x034 => s.metH
  | _ => 0#32

/-- A cell as a read returns it (R75): ORIG, RECON and MODE zero-extended, RES and COEF whole, AVAIL in bit 0. -/
def State.readCell (s : State) (win : Window) (k : Nat) : Word :=
  match win with
  | .orig => (s.origCell k).setWidth 32
  | .recon => (s.reconCell k).setWidth 32
  | .res => s.resCell k
  | .coef => s.coefCell k
  | .mode => (s.modeCell k).setWidth 32
  | .avail => (BitVec.ofBool (s.availBit k)).setWidth 32

/-- The byte at an address, as a bridge would present it (R71): byte 0 of a word is its bits [7:0]. The IPE itself takes
whole words only (R72), so this is a view of the state and no transaction. -/
def State.readByte (s : State) (addr : Word) : Option Byte :=
  let lane (w : Word) : Byte := w.extractLsb' (8 * (addr.toNat % 4)) 8
  match target s.capacity (addr &&& 0xFFFFFFFC#32) .word with
  | .register offset => some (lane (s.readRegister offset))
  | .cell win k => some (lane (s.readCell win k))
  | .unmapped => none

/-- A configuration write: dropped while BUSY = 1 (R79), else `accepted`. -/
def State.configWrite (s : State) (accepted : State) : State := if s.busy then s.dropWrite else accepted

/-- A write to STATUS (R28): 1 clears DONE, ERR (with CAUSE and ERRPOS) and DROP; 0 leaves them. Never dropped. -/
def State.writeStatus (s : State) (v : Word) : State :=
  let a := if v.getLsbD 2 then s.clearError else s
  { a with
    status := { a.status with
      done := a.status.done && !v.getLsbD 1
      drop := a.status.drop && !v.getLsbD 3 } }

/-- A write to a register (R20 to R34, R79): reserved bits stay 0, a PLANE, WIDTH or HEIGHT write clears AVAIL (R46), a
CMD write is a command issue (R130), and read-only and reserved offsets ignore it. -/
def State.writeRegister (s : State) (offset : Nat) (v : Word) : State :=
  match offset with
  | 0x004 => s.configWrite { s with ctrl := v &&& 0x00000007#32 }
  | 0x008 => s.configWrite { s.clearAvail with plane := v &&& 0x00000013#32 }
  | 0x00C => s.configWrite { s.clearAvail with width := v &&& 0x0000FFFF#32 }
  | 0x010 => s.configWrite { s.clearAvail with height := v &&& 0x0000FFFF#32 }
  | 0x014 => s.configWrite { s with geom := v }
  | 0x018 => s.issue v
  | 0x01C => s.writeStatus v
  | _ => s

/-- A host write to a cell (R76): the low bits of the cell's width; `none` is the bus error of R77. -/
def State.writeCell (s : State) (win : Window) (k : Nat) (v : Word) : Option State :=
  match win with
  | .orig => some { s with mem := { s.mem with orig := cellPut s.mem.orig k (v.setWidth 16) } }
  | .recon => none
  | .res => some { s with mem := { s.mem with res := cellPut s.mem.res k v } }
  | .coef => some { s with mem := { s.mem with coef := cellPut s.mem.coef k v } }
  | .mode => some { s with mem := { s.mem with mode := cellPut s.mem.mode k (v.setWidth 8) } }
  | .avail => none

/-- One host transaction: the answer and the state after it (R70). While BUSY = 1 every window access is a bus
error (R78); a bus error changes nothing (R299). -/
def State.transact (s : State) : Txn → Answer × State
  | .read addr size =>
    match target s.capacity addr size with
    | .register offset => (.data (s.readRegister offset), s)
    | .cell win k => if s.busy then (.busError, s) else (.data (s.readCell win k), s)
    | .unmapped => (.busError, s)
  | .write addr size v =>
    match target s.capacity addr size with
    | .register offset => (.done, s.writeRegister offset v)
    | .cell win k =>
      if s.busy then (.busError, s)
      else
        match s.writeCell win k v with
        | some t => (.done, t)
        | none => (.busError, s)
    | .unmapped => (.busError, s)

end Sys2Proof.Machine
end

