-- ==== Sys2Proof/Machine/Dispatch.lean ====
section
/-! DEFINITION. The meaning of each command, one arm for each row of the opcode table (rule R102): the engine's next
atomic step of that command (R17). -/

namespace Sys2Proof.Machine

/-- The engine's next atomic step of command `i` (R132 step 7 on; R102). -/
def exec (i : Instr) (s : State) : Host.Outcome State Fault Refusal :=
  match i with
  | .nop => Sys2Proof.Machine.execNop s
  | .clrav => Sys2Proof.Machine.execClrav s
  | .encb br bc => Sys2Proof.Machine.execEncb br bc s
  | .decb br bc => Sys2Proof.Machine.execDecb br bc s
  | .encp => Sys2Proof.Machine.execEncp s
  | .decp => Sys2Proof.Machine.execDecp s
  | .fdctb br bc => Sys2Proof.Machine.execFdctb br bc s
  | .idctb br bc => Sys2Proof.Machine.execIdctb br bc s

end Sys2Proof.Machine
end

