-- ==== Sys2Proof/Machine/Engine.lean ====
section
/-! DEFINITION. Whose turn it is: the engine's turn (rules R17, R132), a host transaction's (R70, R81), the reset input's
(R320), and the loading of a command word where the engine takes its next command from (R27, R130). -/

namespace Sys2Proof.Machine

/-- The engine's next atomic step. It does nothing in IDLE, which "has no entry or exit action" (R343), nor while the
reset input is asserted (R320). Otherwise it takes its command from LASTCMD: an illegal word ends at once with BAD_CMD
(R103, R132 step 1), and a legal one runs. -/
def State.engineTurn (s : State) : Host.Outcome State Fault Refusal :=
  if s.resetLine || !s.busy then .next s
  else
    match decode s.lastCmd with
    | .error _ => .next (s.raise ⟨.badCmd, 0, 0⟩)
    | .ok i => exec i s

/-- A host transaction (R70), its answer recorded. While the reset input is asserted it is refused (R320, U3). -/
def State.busTurn (t : Txn) (s : State) : Host.Outcome State Fault Refusal :=
  if s.resetLine then .refused .busDuringReset
  else .next { (s.transact t).2 with answers := (s.transact t).1 :: s.answers }

/-- The reset input is asserted or released (R320). -/
def State.resetTurn (asserted : Bool) (s : State) : Host.Outcome State Fault Refusal :=
  .next (if asserted then s.assertReset else s.releaseReset)

/-- A command word placed where the engine takes its next command from, as an accepted CMD write leaves it (R130), with
the engine's turn next (log entry 8). An uncleared error is cleared, for CMD accepts nothing before (R298). -/
def State.loadCommand (w : Word) (s : State) : State :=
  { ({ s with resetLine := false } : State).clearError.accept w with pending := .engine :: s.pending }

end Sys2Proof.Machine
end

