-- ==== Sys2Proof/Machine/Step.lean ====
section
/-! DEFINITION. One step of the IPE: the next event of the script, and with none left the engine goes on by itself, since
every accepted command completes without any host action (rules R340, R341). -/

namespace Sys2Proof.Machine

/-- One step (R17, R81): one host transaction, one atomic engine step, or one edge of the reset input. -/
def step (s : State) : Host.Outcome State Fault Refusal :=
  match s.pending with
  | [] => s.engineTurn
  | .engine :: rest => State.engineTurn { s with pending := rest }
  | .bus t :: rest => State.busTurn t { s with pending := rest }
  | .reset asserted :: rest => State.resetTurn asserted { s with pending := rest }

/-- The state whose very next step runs the instruction whose bits are `w` (log entry 8). -/
def State.withFetchWord (s : State) (nbits w : Nat) : State := s.loadCommand (tableWord nbits w)

end Sys2Proof.Machine
end

