-- ==== Sys2Proof/Machine/HostProgram.lean ====
section
/-! DEFINITION. The host programs of rules R109 to R111 as scripts of the boundary: the statements, the pseudo-instructions
and their expansions, and the software re-initialisation of R321. A `WAIT` is a host loop, so it is written with the
number of polls it takes (log entry 13). -/

namespace Sys2Proof.Machine

/-- `WR addr, v` (R110). -/
def hostWr (addr v : Word) : Input := .bus (.write addr .word v)

/-- `RD addr` (R110). -/
def hostRd (addr : Word) : Input := .bus (.read addr .word)

/-- `CMD <command>` (R110): a write of its encoding (R109) to CMD. -/
def hostCmd (i : Instr) : Input := hostWr 0x018#32 (encode i)

/-- `WAIT` (R110) that takes `polls` reads of STATUS, the engine taking one step before each. -/
def hostWait (polls : Nat) : List Input := (List.replicate polls [Input.engine, hostRd 0x01C#32]).flatten

/-- `CFG kind, depth, w, h` (R111). -/
def hostCfg (kind depth w h : Nat) : List Input :=
  [hostWr 0x008#32 (BitVec.ofNat 32 depth <<< 4 ||| BitVec.ofNat 32 kind),
    hostWr 0x00C#32 (BitVec.ofNat 32 w), hostWr 0x010#32 (BitVec.ofNat 32 h)]

/-- `GEOMSET bcols, brows` (R111). -/
def hostGeomset (bcols brows : Nat) : List Input :=
  [hostWr 0x014#32 (BitVec.ofNat 32 brows <<< 16 ||| BitVec.ofNat 32 bcols)]

/-- `METRIC m` (R111), where `c` is the word the host read from CTRL. -/
def hostMetric (c : Word) (m : Nat) : List Input :=
  [hostRd 0x004#32, hostWr 0x004#32 (c &&& 0x6#32 ||| BitVec.ofNat 32 m)]

/-- `CLRERR` (R111). -/
def hostClrerr : List Input := [hostWr 0x01C#32 0x4#32]

/-- `CLRALL` (R111): clears DONE, ERR and DROP. -/
def hostClrall : List Input := [hostWr 0x01C#32 0xE#32]

/-- `FILL win, x0, y0, w, h, f` (R111), with the plane width `width` the host knows. -/
def hostFill (base : Word) (width x0 y0 w h : Nat) (f : Nat → Nat → Word) : List Input :=
  (List.range h).flatMap fun y =>
    (List.range w).map fun x =>
      hostWr (base + BitVec.ofNat 32 (4 * ((y0 + y) * width + (x0 + x)))) (f (x0 + x) (y0 + y))

/-- `RUN <command>` (R111): `CMD` and then `WAIT`. -/
def hostRun (i : Instr) (polls : Nat) : List Input := hostCmd i :: hostWait polls

/-- The writes of the software re-initialisation (R321). -/
def hostReinit : List Input :=
  [hostWr 0x01C#32 0xE#32, hostWr 0x004#32 0#32, hostWr 0x008#32 0#32, hostWr 0x00C#32 0#32, hostWr 0x010#32 0#32,
    hostWr 0x014#32 0#32]

/-- `s` with a host program as its script. -/
def State.withScript (s : State) (script : List Input) : State := { s with pending := script }

/-- The state after `k` steps, when none of them is refused. -/
def State.after (s : State) : Nat → Option State
  | 0 => some s
  | k + 1 =>
    match step s with
    | .next t => t.after k
    | .fault _ => none
    | .refused _ => none

end Sys2Proof.Machine
end

