-- ==== Sys2Proof/Safety.lean ====
section
/-! DEFINITION. The words the statements use: when a command's checks pass, said from the rules and not through the
model's own check lists, and the invariants of a sound state (rules R28, R41, R46, R49, R83, R247). -/

namespace Sys2Proof.Safety

open Sys2Proof.Machine

/-! ### When the checks of a command pass -/

/-- PLANE.KIND names a plane and the shape is legal (R132 steps 3 and 4, R134). -/
abbrev ConfigLegal (c : Snapshot) (p : Capacity) : Prop :=
  c.kind ≠ 3 ∧ 1 ≤ c.w ∧ 1 ≤ c.h ∧ c.w % c.n = 0 ∧ c.h % c.n = 0 ∧ c.w ≤ p.maxW ∧ c.h ≤ p.maxH

/-- The block (br, bc) is in the grid (R137). -/
abbrev InGrid (c : Snapshot) (br bc : Nat) : Prop := br < c.brows ∧ bc < c.bcols

/-- GEOM holds the counts of the grid (R140). -/
abbrev GeometryRecorded (c : Snapshot) : Prop := c.bcolsRec = c.bcols ∧ c.browsRec = c.brows

/-- The block is not available and each of its existing neighbours is (R138). -/
abbrev CausallyReady (s : State) (br bc : Nat) : Prop :=
  s.availBit (s.snap.blockIndex br bc) = false ∧
  (0 < br → s.availBit (s.snap.blockIndex (br - 1) bc) = true) ∧
  (0 < bc → s.availBit (s.snap.blockIndex br (bc - 1)) = true) ∧
  (0 < br → 0 < bc → s.availBit (s.snap.blockIndex (br - 1) (bc - 1)) = true)

/-- Every ORIG sample of the block is at most SMAX (R167). -/
abbrev SamplesInRange (s : State) (br bc : Nat) : Prop :=
  ∀ i < s.snap.n, ∀ j < s.snap.n, ((s.origCell (s.snap.cellIndex br bc i j)).toNat : Int) ≤ s.snap.smax

/-- Every RES cell of the block has |RES| ≤ 1023 (R211). -/
abbrev ResidualsInRange (s : State) (br bc : Nat) : Prop :=
  ∀ i < s.snap.n, ∀ j < s.snap.n, |(s.resCell (s.snap.cellIndex br bc i j)).toInt| ≤ 1023

/-- Every COEF cell of the block has |COEF| ≤ 2^22 (R212, R242). -/
abbrev CoefficientsInRange (s : State) (br bc : Nat) : Prop :=
  ∀ i < s.snap.n, ∀ j < s.snap.n, |(s.coefCell (s.snap.cellIndex br bc i j)).toInt| ≤ 4194304

/-- The tags R241's table allows at a position. -/
abbrev TagAllowed (br bc : Nat) (mode : PredMode) : Prop :=
  (br = 0 ∧ bc = 0 ∧ mode = .none) ∨
  (br = 0 ∧ 0 < bc ∧ mode = .horizontal) ∨
  (0 < br ∧ bc = 0 ∧ mode = .vertical) ∨
  (0 < br ∧ 0 < bc ∧ mode ≠ .none)

/-- MODE[b] has bits [7:2] = 0 and a tag allowed at the position (R241). -/
abbrev StoredModeAllowed (s : State) (br bc : Nat) : Prop :=
  (s.modeCell (s.snap.blockIndex br bc)).toNat < 4 ∧ TagAllowed br bc (s.storedMode br bc)

/-- The cell is one of the cells of block (br, bc) (R90). -/
abbrev InBlock (c : Snapshot) (br bc k : Nat) : Prop :=
  ∃ i < c.n, ∃ j < c.n, k = c.cellIndex br bc i j

/-- The neighbour samples a prediction of the block reads are in 0 … SMAX (R160). -/
abbrev NeighboursInRange (s : State) (br bc : Nat) : Prop :=
  (0 < br → ∀ j < s.snap.n, s.reconSample (bc * s.snap.n + j) (br * s.snap.n - 1) ≤ s.snap.smax) ∧
  (0 < bc → ∀ i < s.snap.n, s.reconSample (bc * s.snap.n - 1) (br * s.snap.n + i) ≤ s.snap.smax) ∧
  (0 < br → 0 < bc → s.reconSample (bc * s.snap.n - 1) (br * s.snap.n - 1) ≤ s.snap.smax)

/-- The blocks of the grid in raster order (R12, R136). -/
def rasterBlocks (c : Snapshot) : List (Nat × Nat) :=
  (List.range c.brows).flatMap fun br => (List.range c.bcols).map fun bc => (br, bc)

/-- Neither block is a required neighbour of the other, and they are two blocks (R138, R253). -/
abbrev Independent (br bc br' bc' : Nat) : Prop :=
  ¬(br ≤ br' ∧ br' ≤ br + 1 ∧ bc ≤ bc' ∧ bc' ≤ bc + 1) ∧ ¬(br' ≤ br ∧ br ≤ br' + 1 ∧ bc' ≤ bc ∧ bc ≤ bc' + 1)

/-! ### Invariants of a sound state -/

/-- The reserved bits of the configuration registers read as 0 (R22 to R25). -/
abbrev ReservedBitsZero (s : State) : Prop :=
  s.ctrl.toNat < 8 ∧ s.plane &&& 0xFFFFFFEC#32 = 0#32 ∧ s.width.toNat < 65536 ∧ s.height.toNat < 65536

/-- The STATUS rules: DONE and ERR never both 1, CAUSE and ERRPOS 0 while ERR = 0, CAUSE not 0 while ERR = 1, and
neither DONE nor ERR while BUSY (R28, R29, R130, R296). -/
abbrev StatusSound (s : State) : Prop :=
  ¬(s.status.done = true ∧ s.status.err = true) ∧
  (s.status.err = false → s.status.cause = .none ∧ s.errpos = 0#32) ∧
  (s.status.err = true → s.status.cause ≠ .none) ∧
  (s.busy = true → s.status.done = false ∧ s.status.err = false)

/-- "The snapshot equals the live registers throughout the command" (R49). -/
abbrev SnapshotCurrent (s : State) : Prop := s.busy = true → s.snap = s.liveConfig

/-- A block's content passes the checks of the sweep that runs (R245, R246). -/
def contentPasses (s : State) (br bc : Nat) : Bool :=
  match decode s.lastCmd with
  | .ok .encp => decide (SamplesInRange s br bc)
  | .ok .decp => decide (StoredModeAllowed s br bc) && decide (CoefficientsInRange s br bc)
  | _ => false

/-- Every block of the grid before raster position `m` passes (R247). -/
abbrev ContentPassesBefore (s : State) (m : Nat) : Prop :=
  ∀ br < s.snap.brows, ∀ bc < s.snap.bcols, s.snap.blockIndex br bc < m → contentPasses s br bc = true

/-- The command that runs is a sweep. -/
def runsSweep (s : State) : Bool :=
  match decode s.lastCmd with
  | .ok .encp => true
  | .ok .decp => true
  | _ => false

/-- What holds in each stage of a sweep (R247, R249): the command is a sweep of a legal plane, the cursor is in the grid,
the blocks validated so far pass, and in PROCESS "AVAIL holds 1 exactly at the blocks that precede" the cursor. -/
def sweepSound (s : State) : Bool :=
  match s.phase with
  | .idle => true
  | .start => true
  | .validate br bc =>
    runsSweep s && decide (ConfigLegal s.snap s.capacity) && decide (InGrid s.snap br bc) &&
      decide (ContentPassesBefore s (s.snap.blockIndex br bc))
  | .clear =>
    runsSweep s && decide (ConfigLegal s.snap s.capacity) &&
      decide (ContentPassesBefore s (s.snap.brows * s.snap.bcols))
  | .process br bc =>
    runsSweep s && decide (ConfigLegal s.snap s.capacity) && decide (InGrid s.snap br bc) &&
      decide (ContentPassesBefore s (s.snap.brows * s.snap.bcols)) &&
      decide (s.mem.avail = List.range (s.snap.blockIndex br bc))

/-- Every RECON sample of an available block of the grid of the live configuration is in 0 … SMAX (R41, R160, R252). -/
abbrev ReconInRange (s : State) : Prop :=
  ∀ br < s.liveConfig.brows, ∀ bc < s.liveConfig.bcols,
    s.availBit (s.liveConfig.blockIndex br bc) = true →
      ∀ i < s.liveConfig.n, ∀ j < s.liveConfig.n,
        ((s.reconCell (s.liveConfig.cellIndex br bc i j)).toNat : Int) ≤ s.liveConfig.smax

/-- The registers and fields that no block step and no completion changes: configuration, LASTCMD, snapshot, capacity,
the reset input, and the host's side. -/
abbrev HostSideKept (s t : State) : Prop :=
  t.ctrl = s.ctrl ∧ t.plane = s.plane ∧ t.width = s.width ∧ t.height = s.height ∧ t.geom = s.geom ∧
  t.lastCmd = s.lastCmd ∧ t.snap = s.snap ∧ t.capacity = s.capacity ∧ t.resetLine = s.resetLine ∧
  t.resets = s.resets ∧ t.pending = s.pending ∧ t.answers = s.answers

/-- The selection registers are unchanged (R31, R32). -/
abbrev SelectionKept (s t : State) : Prop :=
  t.modesel = s.modesel ∧ t.metD = s.metD ∧ t.metV = s.metV ∧ t.metH = s.metH

/-- The command ended successfully (R131): BUSY 0, DONE 1, and the rest of STATUS and ERRPOS as they were. -/
abbrev EndedWell (s t : State) : Prop :=
  t.phase = .idle ∧ t.status.done = true ∧ t.status.err = s.status.err ∧ t.status.drop = s.status.drop ∧
  t.status.cause = s.status.cause ∧ t.errpos = s.errpos

end Sys2Proof.Safety
end

