-- ==== Sys2Proof/Certificates/Slice0/Obligations.lean ====
section
/-! DEFINITION. The statements for the provers, from the numbered rules of the spec, file by file. -/

open Sys2Proof Sys2Proof.Machine Sys2Proof.Safety

/-! ### The command word (30_encoding.md) -/

/-- Decoding the encoding of a command an assembler accepts gives the command back, for every block operand the 12-bit
fields admit (R102, R109). -/
def Obligations.DecodeOfEncodeIsTheCommand : Prop :=
  ∀ i : Instr, i.wellFormed = true → decode (encode i) = .ok i

/-- A word that decodes is the encoding of the command it decodes to, and of no other that an assembler accepts (R102,
R104, R109). -/
def Obligations.EncodeOfDecodeIsTheWord : Prop :=
  ∀ (w : Word) (i : Instr), decode w = .ok i → encode i = w ∧ i.wellFormed = true ∧
    ∀ j : Instr, j.wellFormed = true → encode j = w → j = i

/-- The illegal words are those of R103: OPC of 8 or more, RSV not 0, or operands on NOP, CLRAV, ENCP or DECP. -/
def Obligations.IllegalWordsAreThoseListed : Prop :=
  ∀ w : Word, (∃ e, decode w = .error e) ↔
    (8 ≤ w.toNat % 16 ∨ w.toNat / 16 % 16 ≠ 0 ∨
      ((w.toNat % 16 = 0 ∨ w.toNat % 16 = 1 ∨ w.toNat % 16 = 4 ∨ w.toNat % 16 = 5) ∧ w.toNat / 256 ≠ 0))

/-- A few command words of R102 and of vector T-C14, written out field by field, decode to the commands they stand
for. -/
def Obligations.WrittenWordsDecode : Prop :=
  decode 0b000000000000_000000000000_0000_0000#32 = .ok .nop ∧
  decode 0b000000000000_000000000000_0000_0001#32 = .ok .clrav ∧
  decode 0b000000000001_000000000010_0000_0010#32 = .ok (.encb 1 2) ∧
  decode 0b000000000011_000000000100_0000_0011#32 = .ok (.decb 3 4) ∧
  decode 0b000000000000_000000000000_0000_0100#32 = .ok .encp ∧
  decode 0b000000000000_000000000000_0000_0101#32 = .ok .decp ∧
  decode 0b000000000000_000000000001_0000_0110#32 = .ok (.fdctb 0 1) ∧
  decode 0b111111111111_111111111111_0000_0111#32 = .ok (.idctb 4095 4095)

/-! ### The step and the life of a command (00_scope.md, 40_control.md) -/

/-- A step runs the decoded command: while a command runs and reset is not asserted, the engine's turn is `exec` of the
command that LASTCMD decodes to, whether the script gives the engine its turn or is empty (the script is the model's
own, log entry 4). In IDLE, and while reset is asserted, the engine's turn changes nothing (R343; log entry 7). -/
def Obligations.StepRunsTheDecodedCommand : Prop :=
  (∀ (s : State) (i : Instr), s.resetLine = false → s.phase ≠ .idle → decode s.lastCmd = .ok i →
    (s.pending = [] → step s = exec i s) ∧
    (∀ rest, s.pending = .engine :: rest → step s = exec i { s with pending := rest })) ∧
  (∀ s : State, s.phase = .idle ∨ s.resetLine = true →
    (s.pending = [] → step s = .next s) ∧
    (∀ rest, s.pending = .engine :: rest → step s = .next { s with pending := rest }))

/-- A word placed by `withFetchWord` is the command the very next step runs, on the same buffers and on the live
configuration as its snapshot (the model's loading, log entry 8). -/
def Obligations.FetchedWordRunsNext : Prop :=
  ∀ (s : State) (i : Instr), i.wellFormed = true →
    ∃ t, step (s.withFetchWord 32 (encode i).toNat) = exec i t ∧ t.lastCmd = encode i ∧ t.phase = .start ∧
      t.snap = s.liveConfig ∧ t.mem = s.mem ∧ t.nblk = 0#32 ∧ t.status.done = false ∧ t.pending = s.pending

/-- A write of a word to CMD (R130): while BUSY = 1 or ERR = 1 it is dropped and changes DROP alone, otherwise it is
latched, DONE and NBLK are cleared, BUSY is set and the snapshot taken (R27, R49). The stage START and the recorded
answer are the model's own (log entries 5 and 11). -/
def Obligations.CommandIssueIsAcceptedOrDropped : Prop :=
  ∀ (s : State) (w : Word) (rest : List Input), s.resetLine = false →
    s.pending = .bus (.write 0x018#32 .word w) :: rest →
    ((s.busy = true ∨ s.status.err = true) →
      step s = .next { s with
        pending := rest
        answers := .done :: s.answers
        status := { s.status with drop := true } }) ∧
    (s.busy = false → s.status.err = false →
      step s = .next { s with
        pending := rest
        answers := .done :: s.answers
        lastCmd := w
        status := { s.status with done := false }
        nblk := 0#32
        phase := .start
        snap := ⟨s.ctrl.getLsbD 0, s.plane, s.width, s.height, s.geom⟩ })

/-- An accepted illegal word ends the command at once with BAD_CMD and ERRPOS 0, and with no other effect (R103,
R283). -/
def Obligations.IllegalWordEndsWithBadCmd : Prop :=
  ∀ (s : State) (rest : List Input), s.resetLine = false → s.busy = true → s.pending = .engine :: rest →
    (8 ≤ s.lastCmd.toNat % 16 ∨ s.lastCmd.toNat / 16 % 16 ≠ 0 ∨
      ((s.lastCmd.toNat % 16 = 0 ∨ s.lastCmd.toNat % 16 = 1 ∨ s.lastCmd.toNat % 16 = 4 ∨ s.lastCmd.toNat % 16 = 5) ∧
        s.lastCmd.toNat / 256 ≠ 0)) →
    step s = .next { s with
      pending := rest
      phase := .idle
      nblk := 0#32
      errpos := 0#32
      status := { done := false, err := true, drop := s.status.drop, cause := .badCmd } }

/-- From every state whose sweep stage is sound, the engine alone ends a running command, with DONE or with ERR, in at
most 2·BROWS·BCOLS + 2 steps and without any host action (R131, R341). The steps counted are the model's atomic steps:
R341's checks and block steps, and one each for START and CLEAR (log entry 11). -/
def Obligations.EveryCommandCompletes : Prop :=
  ∀ s : State, sweepSound s = true → s.busy = true → s.resetLine = false → s.pending = [] →
    ∃ (k : Nat) (t : State), k ≤ 2 * (s.snap.brows * s.snap.bcols) + 2 ∧ s.after k = some t ∧ t.busy = false ∧
      (t.status.done = true ∨ t.status.err = true)

/-! ### The commands that complete, with what they change and what they leave -/

/-- NOP changes nothing but BUSY and DONE (R142); CLRAV clears every AVAIL cell and changes nothing else but BUSY and
DONE (R143). -/
def Obligations.NopAndClravOnlyComplete : Prop :=
  ∀ s : State,
    exec .nop s = .next { s with phase := .idle, status := { s.status with done := true } } ∧
    ∃ t, exec .clrav s = .next t ∧ (∀ b, t.availBit b = false) ∧
      t.mem = { s.mem with avail := [] } ∧ EndedWell s t ∧ HostSideKept s t ∧ SelectionKept s t ∧ t.nblk = s.nblk

/-- ENCB on a block that is ready encodes it (R171): the residual, coefficients, reconstruction, mode and AVAIL bit of
that block, the selection registers (R170) and NBLK; every other cell and register keeps its value. -/
def Obligations.EncbEncodesOneBlock : Prop :=
  ∀ (s : State) (br bc : Nat), ConfigLegal s.snap s.capacity → InGrid s.snap br bc → CausallyReady s br bc →
    SamplesInRange s br bc →
    ∃ t, exec (.encb br bc) s = .next t ∧
      (∀ i < s.snap.n, ∀ j < s.snap.n,
        t.resCell (s.snap.cellIndex br bc i j) =
          BitVec.ofInt 32 (((s.origCell (s.snap.cellIndex br bc i j)).toNat : Int) -
            blockAt (s.prediction (s.selectedMode br bc) br bc) i j) ∧
        t.coefCell (s.snap.cellIndex br bc i j) =
          BitVec.ofInt 32 (blockAt (fdct s.snap.n (s.encodeResidual br bc)) i j) ∧
        t.reconCell (s.snap.cellIndex br bc i j) =
          BitVec.ofInt 16 (max 0 (min s.snap.smax (blockAt (s.prediction (s.selectedMode br bc) br bc) i j +
            blockAt (idct s.snap.n (fdct s.snap.n (s.encodeResidual br bc))) i j)))) ∧
      t.modeCell (s.snap.blockIndex br bc) = (s.selectedMode br bc).tag.setWidth 8 ∧
      t.availBit (s.snap.blockIndex br bc) = true ∧
      (∀ k, ¬InBlock s.snap br bc k →
        t.resCell k = s.resCell k ∧ t.coefCell k = s.coefCell k ∧ t.reconCell k = s.reconCell k) ∧
      (∀ b, b ≠ s.snap.blockIndex br bc → t.modeCell b = s.modeCell b ∧ t.availBit b = s.availBit b) ∧
      t.mem.orig = s.mem.orig ∧
      t.metD = (if 0 < br ∧ 0 < bc then BitVec.ofInt 32 (s.candidateEnergy br bc .diagonal) else 0xFFFFFFFF#32) ∧
      t.metV = (if 0 < br then BitVec.ofInt 32 (s.candidateEnergy br bc .vertical) else 0xFFFFFFFF#32) ∧
      t.metH = (if 0 < bc then BitVec.ofInt 32 (s.candidateEnergy br bc .horizontal) else 0xFFFFFFFF#32) ∧
      t.modesel.toNat = (s.selectedMode br bc).tag.toNat + (if 0 < br ∧ 0 < bc then 16 else 0) +
        (if 0 < br then 32 else 0) + (if 0 < bc then 64 else 0) ∧
      t.nblk = s.nblk + 1#32 ∧ EndedWell s t ∧ HostSideKept s t

/-- DECB on a block that is ready decodes it (R244): the residual, reconstruction and AVAIL bit of that block, MODESEL
and NBLK; ORIG, COEF, MODE, the metric registers and every other cell keep their values. -/
def Obligations.DecbDecodesOneBlock : Prop :=
  ∀ (s : State) (br bc : Nat), ConfigLegal s.snap s.capacity → GeometryRecorded s.snap → InGrid s.snap br bc →
    CausallyReady s br bc → StoredModeAllowed s br bc → CoefficientsInRange s br bc →
    ∃ t, exec (.decb br bc) s = .next t ∧
      (∀ i < s.snap.n, ∀ j < s.snap.n,
        t.resCell (s.snap.cellIndex br bc i j) =
          BitVec.ofInt 32 (blockAt (idct s.snap.n
            (blockOf s.snap.n fun k l => (s.coefCell (s.snap.cellIndex br bc k l)).toInt)) i j) ∧
        t.reconCell (s.snap.cellIndex br bc i j) =
          BitVec.ofInt 16 (max 0 (min s.snap.smax (blockAt (s.prediction (s.storedMode br bc) br bc) i j +
            blockAt (idct s.snap.n
              (blockOf s.snap.n fun k l => (s.coefCell (s.snap.cellIndex br bc k l)).toInt)) i j)))) ∧
      t.availBit (s.snap.blockIndex br bc) = true ∧
      (∀ k, ¬InBlock s.snap br bc k → t.resCell k = s.resCell k ∧ t.reconCell k = s.reconCell k) ∧
      (∀ b, b ≠ s.snap.blockIndex br bc → t.availBit b = s.availBit b) ∧
      t.mem.orig = s.mem.orig ∧ t.mem.coef = s.mem.coef ∧ t.mem.mode = s.mem.mode ∧
      t.metD = s.metD ∧ t.metV = s.metV ∧ t.metH = s.metH ∧
      t.modesel.toNat = (s.storedMode br bc).tag.toNat + (if 0 < br ∧ 0 < bc then 16 else 0) +
        (if 0 < br then 32 else 0) + (if 0 < bc then 64 else 0) ∧
      t.nblk = s.nblk + 1#32 ∧ EndedWell s t ∧ HostSideKept s t

/-- FDCTB transforms the block's RES cells into its COEF cells and changes nothing else but NBLK, BUSY and DONE
(R211). -/
def Obligations.FdctbTransformsOneBlock : Prop :=
  ∀ (s : State) (br bc : Nat), ConfigLegal s.snap s.capacity → InGrid s.snap br bc → ResidualsInRange s br bc →
    ∃ t, exec (.fdctb br bc) s = .next t ∧
      (∀ i < s.snap.n, ∀ j < s.snap.n, t.coefCell (s.snap.cellIndex br bc i j) =
        BitVec.ofInt 32 (blockAt (fdct s.snap.n
          (blockOf s.snap.n fun k l => (s.resCell (s.snap.cellIndex br bc k l)).toInt)) i j)) ∧
      (∀ k, ¬InBlock s.snap br bc k → t.coefCell k = s.coefCell k) ∧
      t.mem = { s.mem with coef := t.mem.coef } ∧
      t.nblk = s.nblk + 1#32 ∧ EndedWell s t ∧ HostSideKept s t ∧ SelectionKept s t

/-- IDCTB transforms the block's COEF cells into its RES cells and changes nothing else but NBLK, BUSY and DONE
(R212). -/
def Obligations.IdctbTransformsOneBlock : Prop :=
  ∀ (s : State) (br bc : Nat), ConfigLegal s.snap s.capacity → InGrid s.snap br bc → CoefficientsInRange s br bc →
    ∃ t, exec (.idctb br bc) s = .next t ∧
      (∀ i < s.snap.n, ∀ j < s.snap.n, t.resCell (s.snap.cellIndex br bc i j) =
        BitVec.ofInt 32 (blockAt (idct s.snap.n
          (blockOf s.snap.n fun k l => (s.coefCell (s.snap.cellIndex br bc k l)).toInt)) i j)) ∧
      (∀ k, ¬InBlock s.snap br bc k → t.resCell k = s.resCell k) ∧
      t.mem = { s.mem with res := t.mem.res } ∧
      t.nblk = s.nblk + 1#32 ∧ EndedWell s t ∧ HostSideKept s t ∧ SelectionKept s t

/-- One engine step of ENCP in each stage (R245, R247, R249): the checks lead to VALIDATE(0, 0), a block in range leads
to the next block and the last one to CLEAR, CLEAR empties AVAIL alone, and a STEP encodes its block and moves to the
next or completes. That START and CLEAR are steps of their own, and that the last block step completes the command, is
the model's reading of R249 (log entry 11). -/
def Obligations.EncpStepsThroughItsStages : Prop :=
  ∀ s : State,
    (s.phase = .start → ConfigLegal s.snap s.capacity → exec .encp s = .next { s with phase := .validate 0 0 }) ∧
    (∀ br bc, s.phase = .validate br bc → SamplesInRange s br bc →
      exec .encp s = .next { s with
        phase :=
          if bc + 1 < s.snap.bcols then .validate br (bc + 1)
          else if br + 1 < s.snap.brows then .validate (br + 1) 0
          else .clear }) ∧
    (s.phase = .clear → exec .encp s = .next { s with mem := { s.mem with avail := [] }, phase := .process 0 0 }) ∧
    (∀ br bc, s.phase = .process br bc → CausallyReady s br bc → SamplesInRange s br bc →
      exec .encp s = .next
        (if bc + 1 < s.snap.bcols then { s.encodeBlock br bc with phase := .process br (bc + 1) }
        else if br + 1 < s.snap.brows then { s.encodeBlock br bc with phase := .process (br + 1) 0 }
        else { s.encodeBlock br bc with phase := .idle, status := { s.status with done := true } }))

/-- One engine step of DECP in each stage (R246, R247, R249), as for ENCP with the decoder's checks and block step.
That START and CLEAR are steps of their own, and that the last block step completes the command, is the model's reading
of R249 (log entry 11). -/
def Obligations.DecpStepsThroughItsStages : Prop :=
  ∀ s : State,
    (s.phase = .start → ConfigLegal s.snap s.capacity → GeometryRecorded s.snap →
      exec .decp s = .next { s with phase := .validate 0 0 }) ∧
    (∀ br bc, s.phase = .validate br bc → StoredModeAllowed s br bc → CoefficientsInRange s br bc →
      exec .decp s = .next { s with
        phase :=
          if bc + 1 < s.snap.bcols then .validate br (bc + 1)
          else if br + 1 < s.snap.brows then .validate (br + 1) 0
          else .clear }) ∧
    (s.phase = .clear → exec .decp s = .next { s with mem := { s.mem with avail := [] }, phase := .process 0 0 }) ∧
    (∀ br bc, s.phase = .process br bc → CausallyReady s br bc → StoredModeAllowed s br bc →
      CoefficientsInRange s br bc →
      exec .decp s = .next
        (if bc + 1 < s.snap.bcols then { s.decodeBlock br bc with phase := .process br (bc + 1) }
        else if br + 1 < s.snap.brows then { s.decodeBlock br bc with phase := .process (br + 1) 0 }
        else { s.decodeBlock br bc with phase := .idle, status := { s.status with done := true } }))

/-- ENCP as a whole (R245, R247): on a legal plane whose samples are all in range, the engine alone reaches DONE in
2·BROWS·BCOLS + 2 steps, in exactly the state that clearing AVAIL and then the encode block steps in raster order give,
with NBLK = BROWS·BCOLS and AVAIL 1 exactly on the grid. The number of steps is the model's (log entry 11). -/
def Obligations.EncpIsTheRasterSweep : Prop :=
  ∀ s : State, decode s.lastCmd = .ok .encp → s.phase = .start → s.resetLine = false → s.pending = [] →
    s.nblk = 0#32 → ConfigLegal s.snap s.capacity →
    (∀ br < s.snap.brows, ∀ bc < s.snap.bcols, SamplesInRange s br bc) →
    ∃ t, s.after (2 * (s.snap.brows * s.snap.bcols) + 2) = some t ∧
      t = ((rasterBlocks s.snap).foldl (fun u p => u.encodeBlock p.1 p.2) s.clearAvail).complete ∧
      t.nblk = BitVec.ofNat 32 (s.snap.brows * s.snap.bcols) ∧
      (∀ b, t.availBit b = true ↔ b < s.snap.brows * s.snap.bcols)

/-- DECP as a whole (R246, R247): on a legal plane whose recorded geometry, modes and coefficients all pass, the engine
alone reaches DONE in 2·BROWS·BCOLS + 2 steps, in exactly the state that clearing AVAIL and then the decode block steps
in raster order give. The number of steps is the model's (log entry 11). -/
def Obligations.DecpIsTheRasterSweep : Prop :=
  ∀ s : State, decode s.lastCmd = .ok .decp → s.phase = .start → s.resetLine = false → s.pending = [] →
    s.nblk = 0#32 → ConfigLegal s.snap s.capacity → GeometryRecorded s.snap →
    (∀ br < s.snap.brows, ∀ bc < s.snap.bcols, StoredModeAllowed s br bc ∧ CoefficientsInRange s br bc) →
    ∃ t, s.after (2 * (s.snap.brows * s.snap.bcols) + 2) = some t ∧
      t = ((rasterBlocks s.snap).foldl (fun u p => u.decodeBlock p.1 p.2) s.clearAvail).complete ∧
      t.nblk = BitVec.ofNat 32 (s.snap.brows * s.snap.bcols) ∧
      (∀ b, t.availBit b = true ↔ b < s.snap.brows * s.snap.bcols)

/-! ### Errors (60_exceptions.md) -/

/-- The error completion (R281): STATUS reads ERR with the cause's code, DONE and BUSY are 0, ERRPOS is
`(br << 16) | bc`, NBLK is 0, and every other register and cell is as it was. The codes of the causes are the twelve
numbers of R282's table. -/
def Obligations.ErrorCompletionWritesStatusErrposNblk : Prop :=
  (Cause.none.code = 0#4 ∧ Cause.badCmd.code = 1#4 ∧ Cause.cfg.code = 2#4 ∧ Cause.shape.code = 3#4 ∧
    Cause.geometry.code = 4#4 ∧ Cause.blockRange.code = 5#4 ∧ Cause.causality.code = 6#4 ∧ Cause.rewrite.code = 7#4 ∧
    Cause.badMode.code = 8#4 ∧ Cause.sampleRange.code = 9#4 ∧ Cause.resRange.code = 10#4 ∧
    Cause.coefRange.code = 11#4) ∧
  ∀ (s : State) (f : Failure),
    (s.raise f).statusWord.toNat = 256 * f.cause.code.toNat + 4 + (if s.status.drop then 8 else 0) ∧
    (s.raise f).errpos.toNat = 65536 * (f.br % 65536) + f.bc % 65536 ∧
    (s.raise f).nblk = 0#32 ∧ (s.raise f).mem = s.mem ∧ SelectionKept s (s.raise f) ∧ HostSideKept s (s.raise f)

/-- The block commands report the first failing check in the order of R295, and do their work only when none fails
(R132, R171, R211, R212, R244). FDCTB and IDCTB make no causal check. -/
def Obligations.BlockCommandsCheckInOrder : Prop :=
  ∀ (s : State) (br bc : Nat),
    exec (.encb br bc) s = .next
      (if s.snap.kind = 3 then s.raise ⟨.cfg, 0, 0⟩
      else if ¬ConfigLegal s.snap s.capacity then s.raise ⟨.shape, 0, 0⟩
      else if ¬InGrid s.snap br bc then s.raise ⟨.blockRange, br, bc⟩
      else if s.availBit (s.snap.blockIndex br bc) = true then s.raise ⟨.rewrite, br, bc⟩
      else if ¬CausallyReady s br bc then s.raise ⟨.causality, br, bc⟩
      else if ¬SamplesInRange s br bc then s.raise ⟨.sampleRange, br, bc⟩
      else (s.encodeBlock br bc).complete) ∧
    exec (.decb br bc) s = .next
      (if s.snap.kind = 3 then s.raise ⟨.cfg, 0, 0⟩
      else if ¬ConfigLegal s.snap s.capacity then s.raise ⟨.shape, 0, 0⟩
      else if ¬GeometryRecorded s.snap then s.raise ⟨.geometry, 0, 0⟩
      else if ¬InGrid s.snap br bc then s.raise ⟨.blockRange, br, bc⟩
      else if s.availBit (s.snap.blockIndex br bc) = true then s.raise ⟨.rewrite, br, bc⟩
      else if ¬CausallyReady s br bc then s.raise ⟨.causality, br, bc⟩
      else if ¬StoredModeAllowed s br bc then s.raise ⟨.badMode, br, bc⟩
      else if ¬CoefficientsInRange s br bc then s.raise ⟨.coefRange, br, bc⟩
      else (s.decodeBlock br bc).complete) ∧
    exec (.fdctb br bc) s = .next
      (if s.snap.kind = 3 then s.raise ⟨.cfg, 0, 0⟩
      else if ¬ConfigLegal s.snap s.capacity then s.raise ⟨.shape, 0, 0⟩
      else if ¬InGrid s.snap br bc then s.raise ⟨.blockRange, br, bc⟩
      else if ¬ResidualsInRange s br bc then s.raise ⟨.resRange, br, bc⟩
      else (s.forwardBlock br bc).complete) ∧
    exec (.idctb br bc) s = .next
      (if s.snap.kind = 3 then s.raise ⟨.cfg, 0, 0⟩
      else if ¬ConfigLegal s.snap s.capacity then s.raise ⟨.shape, 0, 0⟩
      else if ¬InGrid s.snap br bc then s.raise ⟨.blockRange, br, bc⟩
      else if ¬CoefficientsInRange s br bc then s.raise ⟨.coefRange, br, bc⟩
      else (s.inverseBlock br bc).complete)

/-- ENCP and DECP start only on a configuration that passes, and otherwise report CFG, SHAPE or (DECP) GEOMETRY with
ERRPOS 0, in that order, before any block is checked (R132, R134, R140, R245, R246). That a passing START is a step of
its own that leads to VALIDATE(0, 0) is the model's reading of R249 (log entry 11). -/
def Obligations.SweepsCheckTheConfigurationFirst : Prop :=
  ∀ s : State, s.phase = .start →
    exec .encp s = .next
      (if s.snap.kind = 3 then s.raise ⟨.cfg, 0, 0⟩
      else if ¬ConfigLegal s.snap s.capacity then s.raise ⟨.shape, 0, 0⟩
      else { s with phase := .validate 0 0 }) ∧
    exec .decp s = .next
      (if s.snap.kind = 3 then s.raise ⟨.cfg, 0, 0⟩
      else if ¬ConfigLegal s.snap s.capacity then s.raise ⟨.shape, 0, 0⟩
      else if ¬GeometryRecorded s.snap then s.raise ⟨.geometry, 0, 0⟩
      else { s with phase := .validate 0 0 })

/-- A sweep is all or nothing (R247, R297): when the first failing block of an ENCP in raster order is (br, bc), the
engine reaches, after checking the blocks up to it, exactly the accepted state with the error completion of
SAMPLE_RANGE at (br, bc), and so no buffer, AVAIL, MODESEL or metric register has changed. The number of steps is the
model's (log entry 11). -/
def Obligations.OneBadBlockFailsTheWholeEncode : Prop :=
  ∀ (s : State) (br bc : Nat), decode s.lastCmd = .ok .encp → s.phase = .start → s.resetLine = false →
    s.pending = [] → ConfigLegal s.snap s.capacity → InGrid s.snap br bc →
    (∀ br' < s.snap.brows, ∀ bc' < s.snap.bcols, s.snap.blockIndex br' bc' < s.snap.blockIndex br bc →
      SamplesInRange s br' bc') →
    ¬SamplesInRange s br bc →
    s.after (s.snap.blockIndex br bc + 2) = some (s.raise ⟨.sampleRange, br, bc⟩)

/-- The same for DECP (R246, R247, R297; log entry 11): at the first failing block BAD_MODE comes before COEF_RANGE. -/
def Obligations.OneBadBlockFailsTheWholeDecode : Prop :=
  ∀ (s : State) (br bc : Nat), decode s.lastCmd = .ok .decp → s.phase = .start → s.resetLine = false →
    s.pending = [] → ConfigLegal s.snap s.capacity → GeometryRecorded s.snap → InGrid s.snap br bc →
    (∀ br' < s.snap.brows, ∀ bc' < s.snap.bcols, s.snap.blockIndex br' bc' < s.snap.blockIndex br bc →
      StoredModeAllowed s br' bc' ∧ CoefficientsInRange s br' bc') →
    ¬(StoredModeAllowed s br bc ∧ CoefficientsInRange s br bc) →
    s.after (s.snap.blockIndex br bc + 2) =
      some (s.raise ⟨if StoredModeAllowed s br bc then .coefRange else .badMode, br, bc⟩)

/-- A command step that ends in an error has changed nothing but STATUS, ERRPOS and NBLK, which is 0 (R281, R297), for
every command. -/
def Obligations.AFailingStepChangesNothingElse : Prop :=
  ∀ (i : Instr) (s t : State), exec i s = .next t → s.status.err = false → t.status.err = true →
    t.mem = s.mem ∧ SelectionKept s t ∧ HostSideKept s t ∧ t.nblk = 0#32 ∧ t.phase = .idle ∧ t.status.done = false

/-! ### The host bus (20_memory.md, 10_state.md) -/

/-- A transaction that is a bus error changes no IPE state (R70, R299), and a read changes none at all (R80). A
transaction of the script takes one step, which records its answer and leaves the state after it (the script and the
record are the model's, log entries 4 and 5). -/
def Obligations.BusErrorsAndReadsChangeNothing : Prop :=
  ∀ (s : State) (txn : Txn),
    ((s.transact txn).1 = .busError → (s.transact txn).2 = s) ∧
    (∀ addr size, txn = .read addr size → (s.transact txn).2 = s) ∧
    (∀ rest, s.resetLine = false → s.pending = .bus txn :: rest →
      step s = .next { (State.transact { s with pending := rest } txn).2 with
        answers := (State.transact { s with pending := rest } txn).1 :: s.answers })

/-- Which transactions are bus errors (R72 to R74, R77, R78, R299): all but aligned words that name a register, or a
cell of a window within its capacity while BUSY = 0, and for a write not RECON or AVAIL. -/
def Obligations.BusErrorsAreThoseListed : Prop :=
  ∀ (s : State) (addr : Word) (size : AccessSize) (v : Word),
    ((s.transact (.read addr size)).1 ≠ .busError ↔
      size = .word ∧ addr.toNat % 4 = 0 ∧
        (addr.toNat < 0x1000 ∨ (s.busy = false ∧
          ((1 ≤ addr.toNat / 0x10000000 ∧ addr.toNat / 0x10000000 ≤ 4 ∧
              addr.toNat % 0x10000000 / 4 < s.capacity.maxW * s.capacity.maxH) ∨
            (5 ≤ addr.toNat / 0x10000000 ∧ addr.toNat / 0x10000000 ≤ 6 ∧
              addr.toNat % 0x10000000 / 4 < s.capacity.maxW / 8 * (s.capacity.maxH / 8)))))) ∧
    ((s.transact (.write addr size v)).1 ≠ .busError ↔
      size = .word ∧ addr.toNat % 4 = 0 ∧
        (addr.toNat < 0x1000 ∨ (s.busy = false ∧
          (((addr.toNat / 0x10000000 = 1 ∨ addr.toNat / 0x10000000 = 3 ∨ addr.toNat / 0x10000000 = 4) ∧
              addr.toNat % 0x10000000 / 4 < s.capacity.maxW * s.capacity.maxH) ∨
            (addr.toNat / 0x10000000 = 5 ∧
              addr.toNat % 0x10000000 / 4 < s.capacity.maxW / 8 * (s.capacity.maxH / 8))))))

/-- Register writes. While BUSY = 0 a write to a configuration register stores the bits R22 to R26 give it, and one to
PLANE, WIDTH or HEIGHT also clears the whole AVAIL map, whether or not the value changes (R46). While BUSY = 1 a write
to CTRL, PLANE, WIDTH, HEIGHT, GEOM or CMD changes DROP alone (R79, R301). At all times a write to a read-only or
reserved offset changes nothing (R20, R34). A word written to an aligned address of the register block is such a write
(R73). -/
def Obligations.RegisterWritesStoreDropOrAreIgnored : Prop :=
  ∀ (s : State) (v : Word),
    (s.busy = false →
      s.writeRegister 0x004 v = { s with ctrl := v &&& 0x7#32 } ∧
      s.writeRegister 0x008 v = { s with plane := v &&& 0x13#32, mem := { s.mem with avail := [] } } ∧
      s.writeRegister 0x00C v = { s with width := v &&& 0xFFFF#32, mem := { s.mem with avail := [] } } ∧
      s.writeRegister 0x010 v = { s with height := v &&& 0xFFFF#32, mem := { s.mem with avail := [] } } ∧
      s.writeRegister 0x014 v = { s with geom := v }) ∧
    (s.busy = true → ∀ offset, (offset = 0x004 ∨ offset = 0x008 ∨ offset = 0x00C ∨ offset = 0x010 ∨ offset = 0x014 ∨
        offset = 0x018) →
      s.writeRegister offset v = { s with status := { s.status with drop := true } }) ∧
    (∀ offset, (offset = 0x000 ∨ 0x020 ≤ offset) → s.writeRegister offset v = s) ∧
    (∀ addr : Word, addr.toNat < 0x1000 → addr.toNat % 4 = 0 →
      s.transact (.write addr .word v) = (.done, s.writeRegister addr.toNat v))

/-- What the registers read as, in every state (R21 to R34): ID its constant, CMD the last accepted word, STATUS its
fields, every other register its stored word at its own offset, and every reserved offset 0; and a read of an aligned
word of the register block returns it, also while BUSY = 1 (R73, R79). -/
def Obligations.RegistersReadAsLaidOut : Prop :=
  ∀ s : State,
    s.readRegister 0x000 = 0x49504501#32 ∧ s.readRegister 0x004 = s.ctrl ∧ s.readRegister 0x008 = s.plane ∧
    s.readRegister 0x00C = s.width ∧ s.readRegister 0x010 = s.height ∧ s.readRegister 0x014 = s.geom ∧
    s.readRegister 0x018 = s.lastCmd ∧ s.readRegister 0x020 = s.errpos ∧ s.readRegister 0x024 = s.nblk ∧
    s.readRegister 0x028 = s.modesel ∧ s.readRegister 0x02C = s.metD ∧ s.readRegister 0x030 = s.metV ∧
    s.readRegister 0x034 = s.metH ∧
    (s.readRegister 0x01C).toNat = (if s.busy then 1 else 0) + (if s.status.done then 2 else 0) +
      (if s.status.err then 4 else 0) + (if s.status.drop then 8 else 0) + 256 * s.status.cause.code.toNat ∧
    (∀ offset, 0x038 ≤ offset → s.readRegister offset = 0#32) ∧
    (∀ addr : Word, addr.toNat < 0x1000 → addr.toNat % 4 = 0 →
      s.transact (.read addr .word) = (.data (s.readRegister addr.toNat), s))

/-- A write to STATUS, also while BUSY = 1 (R28, R79, R298): a 1 in bit 1 clears DONE, in bit 2 ERR with CAUSE and
ERRPOS, in bit 3 DROP; a 0 leaves them; nothing else changes. -/
def Obligations.StatusIsWriteOneToClear : Prop :=
  ∀ (s : State) (v : Word), s.writeRegister 0x01C v =
    { s with
      errpos := if v.getLsbD 2 then 0#32 else s.errpos
      status :=
        { done := if v.getLsbD 1 then false else s.status.done
          err := if v.getLsbD 2 then false else s.status.err
          drop := if v.getLsbD 3 then false else s.status.drop
          cause := if v.getLsbD 2 then .none else s.status.cause } }

/-- The windows (R73, R75 to R77). A cell reads as ORIG, RECON or MODE zero-extended, RES or COEF whole, AVAIL in bit 0.
A host write keeps 16 bits of ORIG, all 32 of RES and COEF and 8 of MODE, and every other cell of every buffer reads as
before; RECON and AVAIL take no write. On the bus, while BUSY = 0, cell k of a window is the word at its base + 4·k, for
each of the six windows and each k below its capacity. -/
def Obligations.CellWritesReadBack : Prop :=
  (∀ (s : State) (k : Nat),
    (s.readCell .orig k).toNat = (s.origCell k).toNat ∧ (s.readCell .recon k).toNat = (s.reconCell k).toNat ∧
    s.readCell .res k = s.resCell k ∧ s.readCell .coef k = s.coefCell k ∧
    (s.readCell .mode k).toNat = (s.modeCell k).toNat ∧
    s.readCell .avail k = (if s.availBit k then 1#32 else 0#32)) ∧
  (∀ (s : State) (k : Nat) (v : Word),
    s.writeCell .recon k v = none ∧ s.writeCell .avail k v = none ∧
    (∀ win, win ≠ .recon → win ≠ .avail → ∃ t, s.writeCell win k v = some t ∧
      (t.readCell win k).toNat =
        (match win with
        | .orig => v.toNat % 65536
        | .mode => v.toNat % 256
        | _ => v.toNat) ∧
      (∀ win' k', ¬(win' = win ∧ k' = k) → t.readCell win' k' = s.readCell win' k') ∧
      t = { s with mem := t.mem })) ∧
  (∀ s : State, s.capacity.Legal → s.busy = false →
    ∀ p ∈ [(Window.orig, 0x10000000#32), (.recon, 0x20000000#32), (.res, 0x30000000#32), (.coef, 0x40000000#32),
        (.mode, 0x50000000#32), (.avail, 0x60000000#32)],
      ∀ k < (if p.1 = .mode ∨ p.1 = .avail then s.capacity.maxW / 8 * (s.capacity.maxH / 8)
          else s.capacity.maxW * s.capacity.maxH),
        s.transact (.read (p.2 + BitVec.ofNat 32 (4 * k)) .word) = (.data (s.readCell p.1 k), s) ∧
        ∀ v, s.transact (.write (p.2 + BitVec.ofNat 32 (4 * k)) .word v) =
          (match s.writeCell p.1 k v with
          | some t => (.done, t)
          | none => (.busError, s)))

/-- Byte order (R71): when a read of the word at `addr` returns `w`, byte `addr` is w[7:0], `addr + 1` w[15:8],
`addr + 2` w[23:16] and `addr + 3` w[31:24]. The byte view is the model's, for the IPE takes whole words (log
entry 1). -/
def Obligations.BytesAreLittleEndian : Prop :=
  ∀ (s : State) (addr w : Word), (s.transact (.read addr .word)).1 = .data w →
    s.readByte addr = some (w.extractLsb' 0 8) ∧ s.readByte (addr + 1#32) = some (w.extractLsb' 8 8) ∧
    s.readByte (addr + 2#32) = some (w.extractLsb' 16 8) ∧ s.readByte (addr + 3#32) = some (w.extractLsb' 24 8)

/-- Every cell the engine addresses lies within the buffers (R90): on a legal plane, the cells of a block of the grid
are below CAP and its block index is below MAXBLK. -/
def Obligations.EngineIndicesAreWithinCapacity : Prop :=
  ∀ (c : Snapshot) (p : Capacity) (br bc i j : Nat), p.Legal → ConfigLegal c p → InGrid c br bc → i < c.n → j < c.n →
    c.cellIndex br bc i j < p.maxW * p.maxH ∧ c.blockIndex br bc < p.maxW / 8 * (p.maxH / 8)

/-- Geometry and partition. The names of R13 as a command computes them from its snapshot, which acceptance takes from
the configuration registers and no command step changes: KIND is PLANE[1:0], and KIND 0 gives N = 16 and KIND 1 and 2
give N = 8 (R133), DEPTH 0 and 1 give B = 8 and SMAX = 255, B = 10 and SMAX = 1023, and W, H, BCOLS, BROWS, the recorded
counts of GEOM and the cell indices follow. For a legal shape (R135) the grid has `W / N` columns and `H / N` rows with
nothing left over, block (br, bc) covers exactly the samples with br·N ≤ y < (br+1)·N and bc·N ≤ x < (bc+1)·N, and every
sample (x, y) of the plane lies in exactly one block, namely (floor(y/N), floor(x/N)). -/
def Obligations.EverySampleLiesInOneBlock : Prop :=
  (∀ (s : State) (w : Word), (s.accept w).snap = ⟨s.ctrl.getLsbD 0, s.plane, s.width, s.height, s.geom⟩) ∧
  (∀ (i : Instr) (s t : State), exec i s = .next t → t.snap = s.snap) ∧
  (∀ c : Snapshot,
    c.kind = c.plane.toNat % 4 ∧ c.bcolsRec = c.geom.toNat % 65536 ∧ c.browsRec = c.geom.toNat / 65536 ∧
    (c.plane.toNat % 4 = 0 → c.n = 16) ∧ (c.plane.toNat % 4 = 1 ∨ c.plane.toNat % 4 = 2 → c.n = 8) ∧
    (c.plane.toNat / 16 % 2 = 0 → c.depth = 8 ∧ c.smax = 255) ∧
    (c.plane.toNat / 16 % 2 = 1 → c.depth = 10 ∧ c.smax = 1023) ∧
    c.w = c.width.toNat % 65536 ∧ c.h = c.height.toNat % 65536 ∧ c.bcols = c.w / c.n ∧ c.brows = c.h / c.n ∧
    (∀ x y, c.sampleIndex x y = y * c.w + x) ∧ (∀ br bc, c.blockIndex br bc = br * c.bcols + bc) ∧
    (∀ br bc i j, c.cellIndex br bc i j = (br * c.n + i) * c.w + (bc * c.n + j))) ∧
  ∀ (c : Snapshot) (p : Capacity), ConfigLegal c p →
    c.bcols * c.n = c.w ∧ c.brows * c.n = c.h ∧
    ∀ x < c.w, ∀ y < c.h, InGrid c (y / c.n) (x / c.n) ∧
      ∀ br bc, InGrid c br bc →
        ((∃ i < c.n, ∃ j < c.n, c.cellIndex br bc i j = c.sampleIndex x y) ↔
          br * c.n ≤ y ∧ y < (br + 1) * c.n ∧ bc * c.n ≤ x ∧ x < (bc + 1) * c.n) ∧
        ((∃ i < c.n, ∃ j < c.n, c.cellIndex br bc i j = c.sampleIndex x y) ↔ br = y / c.n ∧ bc = x / c.n)

/-! ### Interrupt and reset (60_exceptions.md, 70_reset_and_hazards.md) -/

/-- The irq output (R300): high with DONE under IE_DONE or ERR under IE_ERR; acceptance of a command lowers it, and DROP
never raises it. -/
def Obligations.IrqFollowsDoneAndErr : Prop :=
  ∀ s : State,
    (s.irq = true ↔ (s.status.done = true ∧ s.ctrl.getLsbD 1 = true) ∨
      (s.status.err = true ∧ s.ctrl.getLsbD 2 = true)) ∧
    (∀ w, s.status.err = false → (s.accept w).irq = false) ∧ s.dropWrite.irq = s.irq

/-- After reset (R50, R322): ID reads its constant, every other register 0, every AVAIL cell 0, the engine is IDLE, and
irq is low. Every cell of the other buffers reads as the free draw of R51 in its cell width, anew for each reset (the
counter of resets is the model's, log entry 2). -/
def Obligations.ResetStateReadsAsStated : Prop :=
  State.reset.readRegister 0x000 = 0x49504501#32 ∧
  (∀ offset, offset ≠ 0 → State.reset.readRegister offset = 0#32) ∧
  (∀ b, State.reset.readCell .avail b = 0#32) ∧ State.reset.phase = .idle ∧ State.reset.irq = false ∧
  (∀ epoch k : Nat,
    ({ State.reset with resets := epoch }).origCell k = (Config.unwritten .orig epoch k).setWidth 16 ∧
    ({ State.reset with resets := epoch }).reconCell k = (Config.unwritten .recon epoch k).setWidth 16 ∧
    ({ State.reset with resets := epoch }).resCell k = Config.unwritten .res epoch k ∧
    ({ State.reset with resets := epoch }).coefCell k = Config.unwritten .coef epoch k ∧
    ({ State.reset with resets := epoch }).modeCell k = (Config.unwritten .mode epoch k).setWidth 8)

/-- The reset event (R320), at any time and whatever runs: every register, the availability map and the engine's phase
as after reset, no buffer cell written, no completion; the host's transactions are refused until it is released (U3).
That the buffer contents are drawn anew by a count of resets is log entry 2's. That the input is a level whose release
changes the input alone, and the refusal by the name busDuringReset, are the model's (log entry 7). -/
def Obligations.ResetAbandonsEverything : Prop :=
  ∀ (s : State) (rest : List Input),
    (s.pending = .reset true :: rest →
      ∃ t, step s = .next t ∧ (∀ offset, t.readRegister offset = State.reset.readRegister offset) ∧
        t.mem = Memory.reset ∧ t.phase = .idle ∧ t.irq = false ∧ t.capacity = s.capacity ∧ t.resetLine = true ∧
        t.resets = s.resets + 1) ∧
    (s.pending = .reset false :: rest → step s = .next { s with pending := rest, resetLine := false }) ∧
    (∀ txn, s.resetLine = true → s.pending = .bus txn :: rest → step s = .refused .busDuringReset)

/-- Software re-initialisation (R321): the six writes leave every register as after reset but LASTCMD, NBLK, MODESEL and
the metric registers, which keep their values, clear AVAIL and leave the buffers. -/
def Obligations.SoftwareReinitialisation : Prop :=
  ∀ s : State, s.busy = false → s.resetLine = false → s.pending = hostReinit →
    ∃ t, s.after 6 = some t ∧ t.ctrl = 0#32 ∧ t.plane = 0#32 ∧ t.width = 0#32 ∧ t.height = 0#32 ∧ t.geom = 0#32 ∧
      t.statusWord = 0#32 ∧ t.errpos = 0#32 ∧
      t.lastCmd = s.lastCmd ∧ t.nblk = s.nblk ∧ SelectionKept s t ∧ t.mem = { s.mem with avail := [] }

/-! ### Prediction and selection (41_intra_predictor.md) -/

/-- The four predictions, element by element (R161 to R164), of the neighbour samples of R160. Tr is the last row of the
block above, Lc the last column of the block to the left, TLc the last sample of the block above and left, all RECON's;
each is read only where that block exists, by the modes whose position has it (R165), and lies in 0 … SMAX for a block
whose neighbours are available. DIAGONAL is constant along each down-right diagonal and never uses Tr[N−1] or Lc[N−1];
NONE has the tag 0 to itself, and DIAGONAL, VERTICAL and HORIZONTAL the tags 1, 2 and 3 (R105), which the decoder
reads back from bits [1:0] of the MODE cell (R106). -/
def Obligations.PredictionsCopyTheNeighbours : Prop :=
  ∀ (s : State) (br bc : Nat),
    (0 < br → ∀ j < s.snap.n,
      (s.neighbours br bc).top.getD j 0 = s.reconSample (bc * s.snap.n + j) (br * s.snap.n - 1) ∧
      s.snap.sampleIndex (bc * s.snap.n + j) (br * s.snap.n - 1) = s.snap.cellIndex (br - 1) bc (s.snap.n - 1) j) ∧
    (0 < bc → ∀ i < s.snap.n,
      (s.neighbours br bc).left.getD i 0 = s.reconSample (bc * s.snap.n - 1) (br * s.snap.n + i) ∧
      s.snap.sampleIndex (bc * s.snap.n - 1) (br * s.snap.n + i) = s.snap.cellIndex br (bc - 1) i (s.snap.n - 1)) ∧
    (0 < br → 0 < bc →
      (s.neighbours br bc).corner = s.reconSample (bc * s.snap.n - 1) (br * s.snap.n - 1) ∧
      s.snap.sampleIndex (bc * s.snap.n - 1) (br * s.snap.n - 1) =
        s.snap.cellIndex (br - 1) (bc - 1) (s.snap.n - 1) (s.snap.n - 1)) ∧
    (∀ x y, s.reconSample x y = ((s.reconCell (s.snap.sampleIndex x y)).toNat : Int)) ∧
    (∀ m ∈ candidates br bc,
      (m = .vertical → 0 < br) ∧ (m = .horizontal → 0 < bc) ∧ (m = .diagonal → 0 < br ∧ 0 < bc)) ∧
    (s.snap = s.liveConfig → ReconInRange s → InGrid s.snap br bc → CausallyReady s br bc →
      NeighboursInRange s br bc) ∧
    (∀ m : PredMode, m.tag = 0#2 ↔ m = .none) ∧ PredMode.diagonal.tag = 1#2 ∧ PredMode.vertical.tag = 2#2 ∧
    PredMode.horizontal.tag = 3#2 ∧ (∀ m : PredMode, PredMode.ofTag m.tag = m) ∧
    (s.storedMode br bc).tag.toNat = (s.modeCell (s.snap.blockIndex br bc)).toNat % 4 ∧
    ∀ i < s.snap.n, ∀ j < s.snap.n,
      blockAt (s.prediction .none br bc) i j = 0 ∧
      (0 < br → blockAt (s.prediction .vertical br bc) i j =
        s.reconSample (bc * s.snap.n + j) (br * s.snap.n - 1)) ∧
      (0 < bc → blockAt (s.prediction .horizontal br bc) i j =
        s.reconSample (bc * s.snap.n - 1) (br * s.snap.n + i)) ∧
      (0 < br → 0 < bc →
        blockAt (s.prediction .diagonal br bc) i j =
          (if i = j then s.reconSample (bc * s.snap.n - 1) (br * s.snap.n - 1)
          else if i < j then s.reconSample (bc * s.snap.n + (j - i - 1)) (br * s.snap.n - 1)
          else s.reconSample (bc * s.snap.n - 1) (br * s.snap.n + (i - j - 1))) ∧
        (i < j → j - i - 1 ≤ s.snap.n - 2) ∧ (j < i → i - j - 1 ≤ s.snap.n - 2) ∧
        (i + 1 < s.snap.n → j + 1 < s.snap.n →
          blockAt (s.prediction .diagonal br bc) (i + 1) (j + 1) = blockAt (s.prediction .diagonal br bc) i j))

/-- The metric (R168). For METRIC = 0 the metric of a candidate is the sum of |ORIG − P| over the block, for METRIC = 1
the sum of (ORIG − P)². It never overflows its register: for |R| ≤ 1023 on an N×N block with N ≤ 16, SAD and SSD are
between 0 and 267 911 424. -/
def Obligations.MetricFitsItsRegister : Prop :=
  (∀ (s : State) (br bc : Nat) (m : PredMode),
    (s.snap.metric = false → s.candidateEnergy br bc m =
      ∑ i ∈ Finset.range s.snap.n, ∑ j ∈ Finset.range s.snap.n,
        |((s.origCell (s.snap.cellIndex br bc i j)).toNat : Int) - blockAt (s.prediction m br bc) i j|) ∧
    (s.snap.metric = true → s.candidateEnergy br bc m =
      ∑ i ∈ Finset.range s.snap.n, ∑ j ∈ Finset.range s.snap.n,
        (((s.origCell (s.snap.cellIndex br bc i j)).toNat : Int) - blockAt (s.prediction m br bc) i j) ^ 2)) ∧
  (∀ (ssd : Bool) (n : Nat) (r : Block), n ≤ 16 → (∀ i < n, ∀ j < n, |blockAt r i j| ≤ 1023) →
    0 ≤ energy ssd n r ∧ energy ssd n r ≤ 267911424)

/-- Selection (R169): the selected mode is a candidate whose metric is the minimum, strictly below that of every
candidate before it; the empty set gives NONE. For a block with a block above and one to the left (R165) that is
DIAGONAL, VERTICAL or HORIZONTAL, the earliest in this order whose metric is the minimum of the three. -/
def Obligations.SelectionIsTheEarliestMinimum : Prop :=
  (∀ (e : PredMode → Int) (l : List PredMode),
    (l = [] → selectMode e l = .none) ∧
    (l ≠ [] → ∃ pre post, l = pre ++ selectMode e l :: post ∧
      (∀ m ∈ pre, e (selectMode e l) < e m) ∧ (∀ m ∈ post, e (selectMode e l) ≤ e m))) ∧
  (∀ (s : State) (br bc : Nat), 0 < br → 0 < bc →
    (s.selectedMode br bc = .diagonal ↔
      s.candidateEnergy br bc .diagonal ≤ s.candidateEnergy br bc .vertical ∧
        s.candidateEnergy br bc .diagonal ≤ s.candidateEnergy br bc .horizontal) ∧
    (s.selectedMode br bc = .vertical ↔
      s.candidateEnergy br bc .vertical < s.candidateEnergy br bc .diagonal ∧
        s.candidateEnergy br bc .vertical ≤ s.candidateEnergy br bc .horizontal) ∧
    (s.selectedMode br bc = .horizontal ↔
      s.candidateEnergy br bc .horizontal < s.candidateEnergy br bc .diagonal ∧
        s.candidateEnergy br bc .horizontal < s.candidateEnergy br bc .vertical))

/-- The boundary blocks (R175): block (0, 0) always gets NONE, the rest of the first row HORIZONTAL, the rest of the
first column VERTICAL, whatever the samples. -/
def Obligations.BoundaryBlocksHaveOneMode : Prop :=
  ∀ (s : State) (br bc : Nat), s.selectedMode 0 0 = .none ∧ (0 < bc → s.selectedMode 0 bc = .horizontal) ∧
    (0 < br → s.selectedMode br 0 = .vertical)

/-- The mode-selection property (R174, conflict C1): when the block's content equals its VERTICAL prediction, VERTICAL's
metric is 0, the mode is VERTICAL but where DIAGONAL's metric is 0 too, which then wins the tie, and the selected
residual is zero. -/
def Obligations.VerticalContentSelectsVerticalOrDiagonal : Prop :=
  ∀ (s : State) (br bc : Nat), 0 < br →
    (∀ i < s.snap.n, ∀ j < s.snap.n, ((s.origCell (s.snap.cellIndex br bc i j)).toNat : Int) =
      s.reconSample (bc * s.snap.n + j) (br * s.snap.n - 1)) →
    s.candidateEnergy br bc .vertical = 0 ∧
    (bc = 0 → s.selectedMode br bc = .vertical) ∧
    (0 < bc → 0 < s.candidateEnergy br bc .diagonal → s.selectedMode br bc = .vertical) ∧
    (0 < bc → s.candidateEnergy br bc .diagonal = 0 → s.selectedMode br bc = .diagonal) ∧
    (∀ i < s.snap.n, ∀ j < s.snap.n, blockAt (s.encodeResidual br bc) i j = 0)

/-! ### The transform (42_transform.md) -/

/-- The round trip is exact (R206): for N = 8 and N = 16 and every block with |R| ≤ 1023, the inverse of the forward
transform is the block; the other direction does not hold in general. -/
def Obligations.TransformRoundTripIsExact : Prop :=
  (∀ (n : Nat) (r : Block), (n = 8 ∨ n = 16) → (∀ i < n, ∀ j < n, |blockAt r i j| ≤ 1023) →
    ∀ i < n, ∀ j < n, blockAt (idct n (fdct n r)) i j = blockAt r i j) ∧
  (∀ i < 8, ∀ j < 8, blockAt (idct 8 (blockOf 8 fun k l => if k = 0 ∧ l = 0 then 256 else 0)) i j = 0)

/-- The forward range (R207): for |R| ≤ 1023 every coefficient is at most 4 190 208 (N = 16) or 2 095 018 (N = 8) in
absolute value, and so within the inverse transform's operand limit. -/
def Obligations.ForwardCoefficientsAreBounded : Prop :=
  ∀ r : Block,
    ((∀ i < 16, ∀ j < 16, |blockAt r i j| ≤ 1023) → ∀ k < 16, ∀ l < 16, |blockAt (fdct 16 r) k l| ≤ 4190208) ∧
    ((∀ i < 8, ∀ j < 8, |blockAt r i j| ≤ 1023) → ∀ k < 8, ∀ l < 8, |blockAt (fdct 8 r) k l| ≤ 2095018)

/-- The inverse range (R208): for |C| ≤ 2^22 every residual is at most 220 867 (N = 16) or 114 350 (N = 8) in absolute
value, and so fits a RES cell. -/
def Obligations.InverseResidualsAreBounded : Prop :=
  ∀ c : Block,
    ((∀ k < 16, ∀ l < 16, |blockAt c k l| ≤ 4194304) → ∀ i < 16, ∀ j < 16, |blockAt (idct 16 c) i j| ≤ 220867) ∧
    ((∀ k < 8, ∀ l < 8, |blockAt c k l| ≤ 4194304) → ∀ i < 8, ∀ j < 8, |blockAt (idct 8 c) i j| ≤ 114350)

/-- The transforms. RND is the floor of R205. The forward transform is the double sum over the table, rounded once by 24
(R203), in either order of the passes, the inverse the double sum rounded once by 40 (R204), with the integers of the
tables M_8 and M_16 (R201, R202). The values of R213: a constant block has only a DC coefficient, 4096·c for N = 16 and
RND(34 358 329 600·c, 24) for N = 8; the inverse of a DC coefficient alone; and the impulse's coefficients. -/
def Obligations.ConstantBlocksHaveOnlyADcCoefficient : Prop :=
  (∀ (a : Int) (s : Nat), 1 ≤ s →
    rnd a s * 2 ^ s ≤ a + 2 ^ (s - 1) ∧ a + 2 ^ (s - 1) < (rnd a s + 1) * 2 ^ s) ∧
  [rnd (2 ^ 23) 24, rnd (2 ^ 23 - 1) 24, rnd (-2 ^ 23) 24, rnd (-2 ^ 23 - 1) 24, rnd (3 * 2 ^ 39) 40,
    rnd (-(3 * 2 ^ 39)) 40] = [1, 0, 0, -1, 2, -1] ∧
  (∀ (n : Nat) (r : Block), ∀ k < n, ∀ l < n,
    blockAt (fdct n r) k l =
      (∑ i ∈ Finset.range n, ∑ x ∈ Finset.range n, blockAt (basis n) k i * blockAt r i x * blockAt (basis n) l x +
        2 ^ 23) / 2 ^ 24 ∧
    blockAt (fdct n r) k l =
      (∑ x ∈ Finset.range n, ∑ i ∈ Finset.range n, blockAt (basis n) k i * blockAt r i x * blockAt (basis n) l x +
        2 ^ 23) / 2 ^ 24) ∧
  (∀ (n : Nat) (c : Block), ∀ m < n, ∀ x < n,
    blockAt (idct n c) m x =
      (∑ l ∈ Finset.range n, ∑ k ∈ Finset.range n, blockAt (basis n) k m * blockAt c k l * blockAt (basis n) l x +
        2 ^ 39) / 2 ^ 40) ∧
  basis 8 =
    [[23170, 23170, 23170, 23170, 23170, 23170, 23170, 23170],
     [32138, 27246, 18205, 6393, -6393, -18205, -27246, -32138],
     [30274, 12540, -12540, -30274, -30274, -12540, 12540, 30274],
     [27246, -6393, -32138, -18205, 18205, 32138, 6393, -27246],
     [23170, -23170, -23170, 23170, 23170, -23170, -23170, 23170],
     [18205, -32138, 6393, 27246, -27246, -6393, 32138, -18205],
     [12540, -30274, 30274, -12540, -12540, 30274, -30274, 12540],
     [6393, -18205, 27246, -32138, 32138, -27246, 18205, -6393]] ∧
  basis 16 =
    [[16384, 16384, 16384, 16384, 16384, 16384, 16384, 16384, 16384, 16384, 16384, 16384, 16384, 16384, 16384, 16384],
     [23059, 22173, 20435, 17911, 14699, 10922, 6726, 2271, -2271, -6726, -10922, -14699, -17911, -20435,
        -22173, -23059],
     [22725, 19266, 12873, 4520, -4520, -12873, -19266, -22725, -22725, -19266, -12873, -4520, 4520, 12873,
        19266, 22725],
     [22173, 14699, 2271, -10922, -20435, -23059, -17911, -6726, 6726, 17911, 23059, 20435, 10922, -2271,
        -14699, -22173],
     [21407, 8867, -8867, -21407, -21407, -8867, 8867, 21407, 21407, 8867, -8867, -21407, -21407, -8867, 8867, 21407],
     [20435, 2271, -17911, -22173, -6726, 14699, 23059, 10922, -10922, -23059, -14699, 6726, 22173, 17911,
        -2271, -20435],
     [19266, -4520, -22725, -12873, 12873, 22725, 4520, -19266, -19266, 4520, 22725, 12873, -12873, -22725,
        -4520, 19266],
     [17911, -10922, -22173, 2271, 23059, 6726, -20435, -14699, 14699, 20435, -6726, -23059, -2271, 22173,
        10922, -17911],
     [16384, -16384, -16384, 16384, 16384, -16384, -16384, 16384, 16384, -16384, -16384, 16384, 16384,
        -16384, -16384, 16384],
     [14699, -20435, -6726, 23059, -2271, -22173, 10922, 17911, -17911, -10922, 22173, 2271, -23059, 6726,
        20435, -14699],
     [12873, -22725, 4520, 19266, -19266, -4520, 22725, -12873, -12873, 22725, -4520, -19266, 19266, 4520,
        -22725, 12873],
     [10922, -23059, 14699, 6726, -22173, 17911, 2271, -20435, 20435, -2271, -17911, 22173, -6726, -14699,
        23059, -10922],
     [8867, -21407, 21407, -8867, -8867, 21407, -21407, 8867, 8867, -21407, 21407, -8867, -8867, 21407, -21407, 8867],
     [6726, -17911, 23059, -20435, 10922, 2271, -14699, 22173, -22173, 14699, -2271, -10922, 20435, -23059,
        17911, -6726],
     [4520, -12873, 19266, -22725, 22725, -19266, 12873, -4520, -4520, 12873, -19266, 22725, -22725, 19266,
        -12873, 4520],
     [2271, -6726, 10922, -14699, 17911, -20435, 22173, -23059, 23059, -22173, 20435, -17911, 14699, -10922,
        6726, -2271]] ∧
  (∀ (c : Int) (k l : Nat),
    (k < 16 → l < 16 → blockAt (fdct 16 (blockOf 16 fun _ _ => c)) k l = if k = 0 ∧ l = 0 then 4096 * c else 0) ∧
    (k < 8 → l < 8 → blockAt (fdct 8 (blockOf 8 fun _ _ => c)) k l =
      if k = 0 ∧ l = 0 then rnd (34358329600 * c) 24 else 0)) ∧
  [1, 100, -255, 1023].map (fun c => rnd (34358329600 * c) 24) = [2048, 204792, -522219, 2095018] ∧
  (∀ p ∈ [(409600, 100), (4194304, 1024), (-4194304, -1024)], ∀ m < 16, ∀ x < 16,
    blockAt (idct 16 (blockOf 16 fun k l => if k = 0 ∧ l = 0 then p.1 else 0)) m x = p.2) ∧
  (∀ p ∈ [(204792, 100), (256, 0), (4194304, 2048), (-4194304, -2048)], ∀ m < 8, ∀ x < 8,
    blockAt (idct 8 (blockOf 8 fun k l => if k = 0 ∧ l = 0 then p.1 else 0)) m x = p.2) ∧
  (∀ p ∈ [(16, [16, 23, 22, 22], [23, 32, 31, 30], (3454 : Int)), (8, [32, 44, 42, 38], [44, 62, 58, 52], 1788)],
    ∀ c : Block, c = fdct p.1 (blockOf p.1 fun i j => if i = 0 ∧ j = 0 then 1 else 0) →
      (List.range 4).map (blockAt c 0) = p.2.1 ∧ (List.range 4).map (blockAt c 1) = p.2.2.1 ∧
      ∑ k ∈ Finset.range p.1, ∑ l ∈ Finset.range p.1, |blockAt c k l| = p.2.2.2)

/-! ### Encoder, decoder and reconstruction (41_intra_predictor.md, 43_reconstruction.md) -/

/-- The in-loop reconstruction is lossless (R173): after an ENCB that encodes a block whose neighbours' samples are in
range, RECON equals ORIG on the block. -/
def Obligations.EncbReconstructsTheOriginal : Prop :=
  ∀ (s : State) (br bc : Nat), ConfigLegal s.snap s.capacity → InGrid s.snap br bc → CausallyReady s br bc →
    SamplesInRange s br bc → NeighboursInRange s br bc →
    ∃ t, exec (.encb br bc) s = .next t ∧ t.status.done = true ∧
      ∀ i < s.snap.n, ∀ j < s.snap.n,
        t.reconCell (s.snap.cellIndex br bc i j) = s.origCell (s.snap.cellIndex br bc i j)

/-- Encoder and decoder agree (R250): an ENCB step from `s` gives `t`; a DECB of the same block from a state `u` of the
same plane that passes its checks and holds the same stored mode, coefficients and neighbour samples writes the same
RECON block. -/
def Obligations.DecoderRebuildsTheEncodersBlock : Prop :=
  ∀ (s t u : State) (br bc : Nat), ConfigLegal s.snap s.capacity → InGrid s.snap br bc → CausallyReady s br bc →
    SamplesInRange s br bc → exec (.encb br bc) s = .next t →
    u.snap.plane = s.snap.plane → u.snap.width = s.snap.width → u.snap.height = s.snap.height →
    u.neighbours br bc = s.neighbours br bc →
    u.modeCell (s.snap.blockIndex br bc) = t.modeCell (s.snap.blockIndex br bc) →
    (∀ i < s.snap.n, ∀ j < s.snap.n,
      u.coefCell (s.snap.cellIndex br bc i j) = t.coefCell (s.snap.cellIndex br bc i j)) →
    ConfigLegal u.snap u.capacity → GeometryRecorded u.snap → CausallyReady u br bc → CoefficientsInRange u br bc →
    ∃ v, exec (.decb br bc) u = .next v ∧ v.status.done = true ∧
      ∀ i < s.snap.n, ∀ j < s.snap.n,
        v.reconCell (s.snap.cellIndex br bc i j) = t.reconCell (s.snap.cellIndex br bc i j)

/-- End to end (R251): an ENCP of a legal plane whose samples are all in range succeeds and leaves RECON equal to ORIG;
the host then writes the grid's counts to GEOM and issues DECP, which succeeds and leaves RECON equal to ORIG again, at
every sample of the plane. The host's two writes stand in the model's script (log entry 4), and the numbers of steps are
the model's (log entry 11). -/
def Obligations.EncodeThenDecodeIsLossless : Prop :=
  ∀ s : State, decode s.lastCmd = .ok .encp → s.phase = .start → s.resetLine = false → s.pending = [] →
    s.nblk = 0#32 → SnapshotCurrent s → s.status.err = false → ConfigLegal s.snap s.capacity →
    (∀ br < s.snap.brows, ∀ bc < s.snap.bcols, SamplesInRange s br bc) →
    ∃ t v, s.after (2 * (s.snap.brows * s.snap.bcols) + 2) = some t ∧ t.busy = false ∧ t.status.done = true ∧
      (t.withScript (hostGeomset s.snap.bcols s.snap.brows ++ [hostCmd .decp])).after
        (2 * (s.snap.brows * s.snap.bcols) + 4) = some v ∧ v.busy = false ∧ v.status.done = true ∧
      ∀ x < s.snap.w, ∀ y < s.snap.h,
        t.reconCell (s.snap.sampleIndex x y) = s.origCell (s.snap.sampleIndex x y) ∧
        v.reconCell (s.snap.sampleIndex x y) = s.origCell (s.snap.sampleIndex x y)

/-- The encoder's result is a function of the block's samples, its neighbours, its position, the block size and the
metric alone (R172): two states that agree on these select the same mode and give the same residual and
coefficients. -/
def Obligations.EncoderReadsOnlyBlockAndNeighbours : Prop :=
  ∀ (s u : State) (br bc : Nat), u.snap.n = s.snap.n → u.snap.metric = s.snap.metric →
    u.origBlock br bc = s.origBlock br bc → u.neighbours br bc = s.neighbours br bc →
    u.selectedMode br bc = s.selectedMode br bc ∧ u.encodeResidual br bc = s.encodeResidual br bc ∧
      u.encodeCoefficients br bc = s.encodeCoefficients br bc

/-- Order independence, block by block (R254): the encode steps of two blocks neither of which is a neighbour of the
other leave the same buffers in either order. -/
def Obligations.IndependentBlocksCommute : Prop :=
  ∀ (s : State) (br bc br' bc' : Nat), s.mem.wf → InGrid s.snap br bc → InGrid s.snap br' bc' →
    Independent br bc br' bc' →
    ((s.encodeBlock br bc).encodeBlock br' bc').mem = ((s.encodeBlock br' bc').encodeBlock br bc).mem

/-! ### Invariants that every step keeps -/

/-- Every step keeps the memory's canonical form (the model's representation, log entry 1). -/
def Obligations.MemoryStaysCanonical : Prop :=
  ∀ s t : State, s.mem.wf → step s = .next t → t.mem.wf

/-- Every step keeps the reserved bits of CTRL, PLANE, WIDTH and HEIGHT at 0 (R22 to R25). -/
def Obligations.ReservedBitsStayZero : Prop :=
  ∀ s t : State, ReservedBitsZero s → step s = .next t → ReservedBitsZero t

/-- Every step keeps the rules of STATUS (R28, R29, R296): DONE and ERR never both 1, CAUSE and ERRPOS 0 while ERR = 0,
a cause while ERR = 1, and neither flag while BUSY = 1. -/
def Obligations.StatusStaysSound : Prop :=
  ∀ s t : State, StatusSound s → step s = .next t → StatusSound t

/-- Every step keeps the snapshot equal to the live registers while a command runs (R49) and every sweep stage sound
(R247): the cursor in the grid, the blocks validated so far passing, and in PROCESS "AVAIL holds 1 exactly at the blocks
that precede it in raster order". The stages are the model's `Phase` (log entry 11). -/
def Obligations.SweepsStaySound : Prop :=
  ∀ s t : State, SnapshotCurrent s → sweepSound s = true → step s = .next t →
    SnapshotCurrent t ∧ sweepSound t = true

/-- Every step keeps every RECON sample of an available block in 0 … SMAX of the depth in force (R41, R160, R252). -/
def Obligations.ReconStaysInRange : Prop :=
  ∀ s t : State, SnapshotCurrent s → sweepSound s = true → ReconInRange s → step s = .next t → ReconInRange t

/-- All these invariants hold right after reset, and the capacities the model takes there are legal (R9; their values
are the model's choice, log entry 3). -/
def Obligations.ResetStateIsSound : Prop :=
  State.reset.mem.wf ∧ ReservedBitsZero State.reset ∧ StatusSound State.reset ∧ SnapshotCurrent State.reset ∧
    sweepSound State.reset = true ∧ ReconInRange State.reset ∧ State.reset.capacity.Legal

/-- Only an encode or decode block step sets an AVAIL bit, and only its own block's (R45, R248): in a step that sets
one, the engine ran an ENCB or a DECB of that block, or was in PROCESS at that block of an ENCP or a DECP. -/
def Obligations.OnlyBlockStepsSetAvail : Prop :=
  ∀ (s t : State) (b : Nat), step s = .next t → s.availBit b = false → t.availBit b = true →
    (s.pending = [] ∨ ∃ rest, s.pending = .engine :: rest) ∧ s.resetLine = false ∧ s.busy = true ∧
      ∃ br bc, b = s.snap.blockIndex br bc ∧
        (decode s.lastCmd = .ok (.encb br bc) ∨ decode s.lastCmd = .ok (.decb br bc) ∨
          (s.phase = .process br bc ∧ (decode s.lastCmd = .ok .encp ∨ decode s.lastCmd = .ok .decp)))

/-- Nothing but these clears an AVAIL bit (R46): reset, an accepted write of a word to PLANE, WIDTH or HEIGHT, and, on
the engine's turn, CLRAV and the start of the PROCESS stage of ENCP or DECP (the model's step CLEAR, log entry 11); and
each of them leaves the whole map 0. -/
def Obligations.OnlyTheseClearAvail : Prop :=
  ∀ (s t : State) (b : Nat), step s = .next t → s.availBit b = true → t.availBit b = false →
    t.mem.avail = [] ∧
    ((∃ rest, s.pending = .reset true :: rest) ∨
      (∃ addr v rest, s.pending = .bus (.write addr .word v) :: rest ∧ s.resetLine = false ∧ s.busy = false ∧
        (addr = 0x008#32 ∨ addr = 0x00C#32 ∨ addr = 0x010#32)) ∨
      ((s.pending = [] ∨ ∃ rest, s.pending = .engine :: rest) ∧ s.resetLine = false ∧ s.busy = true ∧
        (decode s.lastCmd = .ok .clrav ∨
          (s.phase = .clear ∧ (decode s.lastCmd = .ok .encp ∨ decode s.lastCmd = .ok .decp)))))

/-- Who writes what (R40, R41, R77): the engine never changes ORIG, a host transaction never changes RECON and never
sets an AVAIL bit, and neither changes MAX_W or MAX_H. -/
def Obligations.EachBufferHasItsWriter : Prop :=
  ∀ s t : State, step s = .next t →
    t.capacity = s.capacity ∧
    ((s.pending = [] ∨ ∃ rest, s.pending = .engine :: rest) → t.mem.orig = s.mem.orig) ∧
    ((∃ txn rest, s.pending = .bus txn :: rest) →
      t.mem.recon = s.mem.recon ∧ (t.mem.avail = s.mem.avail ∨ t.mem.avail = []))
end

