-- ==== Sys2Proof/Laws/Cells.lean ====
section
/-! SUPPORT. What sums and the cell operations do: a read after a write, the canonical form of a buffer and of the availability
map, and a block's cells (rules R45, R90, R91). -/

namespace Sys2Proof.Machine

variable {w : Nat}

/-! ### Sums -/

/-- The model's sum is the finite sum. -/
theorem sumTo_eq_sum (n : Nat) (f : Nat → Int) : sumTo n f = ∑ i ∈ Finset.range n, f i := by
  induction n with
  | zero => rfl
  | succ n ih => rw [Finset.sum_range_succ, ← ih]; rfl

/-! ### One cell -/

/-- A read after a write to the same cell. -/
@[simp] theorem cellGet_cellPut_same (b : Buffer w) (k : Nat) (v : BitVec w) : cellGet (cellPut b k v) k = some v := by
  induction b with
  | nil => simp [cellPut, cellGet]
  | cons c rest ih =>
    obtain ⟨a, x⟩ := c
    simp only [cellPut]
    split
    · simp [cellGet]
    · split
      · simp [cellGet]
      · rename_i h
        simp [cellGet, Ne.symm h, ih]

/-- A write leaves every other cell alone. -/
theorem cellGet_cellPut_other (b : Buffer w) {k k' : Nat} (v : BitVec w) (h : k' ≠ k) :
    cellGet (cellPut b k v) k' = cellGet b k' := by
  induction b with
  | nil => simp [cellPut, cellGet, h.symm]
  | cons c rest ih =>
    obtain ⟨a, x⟩ := c
    simp only [cellPut]
    split
    · simp [cellGet, h.symm]
    · split
      · rename_i hk
        subst hk
        simp [cellGet, h.symm]
      · simp [cellGet, ih]

/-- What a read after a write returns, in one equation. -/
theorem cellGet_cellPut (b : Buffer w) (k k' : Nat) (v : BitVec w) :
    cellGet (cellPut b k v) k' = if k' = k then some v else cellGet b k' := by
  by_cases h : k' = k
  · simp [h]
  · simp [h, cellGet_cellPut_other b v h]

/-- The indices of a buffer after a write: the written one and those that were there. -/
theorem mem_keys_cellPut (b : Buffer w) (k : Nat) (v : BitVec w) (a : Nat) :
    a ∈ (cellPut b k v).map Prod.fst ↔ a = k ∨ a ∈ b.map Prod.fst := by
  induction b with
  | nil => simp [cellPut]
  | cons c rest ih =>
    obtain ⟨x, y⟩ := c
    simp only [cellPut]
    split
    · simp
    · split
      · rename_i hk
        subst hk
        simp
      · simp only [List.map_cons, List.mem_cons, ih]
        tauto

/-- A write keeps the indices strictly rising. -/
theorem cellPut_rising (b : Buffer w) (k : Nat) (v : BitVec w) (h : (b.map Prod.fst).Pairwise (· < ·)) :
    ((cellPut b k v).map Prod.fst).Pairwise (· < ·) := by
  induction b with
  | nil => simp [cellPut]
  | cons c rest ih =>
    obtain ⟨x, y⟩ := c
    simp only [List.map_cons, List.pairwise_cons] at h
    simp only [cellPut]
    split
    · rename_i hk
      simp only [List.map_cons, List.pairwise_cons, List.mem_cons]
      refine ⟨?_, h⟩
      rintro a (rfl | ha)
      · exact hk
      · exact hk.trans (h.1 a ha)
    · split
      · rename_i hk
        subst hk
        simpa using h
      · rename_i h1 h2
        simp only [List.map_cons, List.pairwise_cons]
        refine ⟨?_, ih h.2⟩
        intro a ha
        rcases (mem_keys_cellPut rest k v a).1 ha with rfl | ha
        · omega
        · exact h.1 a ha

/-! ### A list of cells -/

/-- Storing a list of cells keeps the indices strictly rising. -/
theorem putCells_rising (cells : List (Nat × BitVec w)) (b : Buffer w) (h : (b.map Prod.fst).Pairwise (· < ·)) :
    ((putCells b cells).map Prod.fst).Pairwise (· < ·) := by
  induction cells generalizing b with
  | nil => simpa [putCells] using h
  | cons c rest ih => exact ih _ (cellPut_rising b c.1 c.2 h)

/-- Storing a list of cells leaves every other cell alone. -/
theorem cellGet_putCells_other (cells : List (Nat × BitVec w)) (b : Buffer w) {k : Nat}
    (h : k ∉ cells.map Prod.fst) : cellGet (putCells b cells) k = cellGet b k := by
  induction cells generalizing b with
  | nil => rfl
  | cons c rest ih =>
    simp only [List.map_cons, List.mem_cons, not_or] at h
    exact (ih _ h.2).trans (cellGet_cellPut_other b c.2 h.1)

/-- Each stored cell holds its value, when no index is stored twice. -/
theorem cellGet_putCells_mem (cells : List (Nat × BitVec w)) (b : Buffer w) {k : Nat} {v : BitVec w}
    (nodup : (cells.map Prod.fst).Nodup) (h : (k, v) ∈ cells) : cellGet (putCells b cells) k = some v := by
  induction cells generalizing b with
  | nil => simp at h
  | cons c rest ih =>
    simp only [List.map_cons, List.nodup_cons] at nodup
    rcases List.mem_cons.1 h with rfl | h
    · exact (cellGet_putCells_other rest _ nodup.1).trans (cellGet_cellPut_same b k v)
    · exact ih _ nodup.2 h

/-! ### The availability map -/

/-- The bits of the map after one is set. -/
theorem mem_availPut (l : List Nat) (b a : Nat) : a ∈ availPut l b ↔ a = b ∨ a ∈ l := by
  induction l with
  | nil => simp [availPut]
  | cons x rest ih =>
    simp only [availPut]
    split
    · simp
    · split
      · rename_i hk
        subst hk
        simp
      · simp only [List.mem_cons, ih]
        tauto

/-- Setting a bit keeps the indices strictly rising. -/
theorem availPut_rising (l : List Nat) (b : Nat) (h : l.Pairwise (· < ·)) : (availPut l b).Pairwise (· < ·) := by
  induction l with
  | nil => simp [availPut]
  | cons x rest ih =>
    simp only [List.pairwise_cons] at h
    simp only [availPut]
    split
    · rename_i hk
      simp only [List.pairwise_cons, List.mem_cons]
      refine ⟨?_, h⟩
      rintro a (rfl | ha)
      · exact hk
      · exact hk.trans (h.1 a ha)
    · split
      · rename_i hk
        subst hk
        simpa using h
      · rename_i h1 h2
        simp only [List.pairwise_cons]
        refine ⟨?_, ih h.2⟩
        intro a ha
        rcases (mem_availPut rest b a).1 ha with rfl | ha
        · omega
        · exact h.1 a ha

/-- Setting the bit after a full prefix of the map extends the prefix (R247). -/
theorem availPut_range (m : Nat) : availPut (List.range m) m = List.range (m + 1) := by
  have key : ∀ (l : List Nat), (∀ a ∈ l, a < m) → availPut l m = l ++ [m] := by
    intro l
    induction l with
    | nil => intro _; rfl
    | cons x rest ih =>
      intro h
      have hx := h x (by simp)
      simp [availPut, Nat.not_lt.2 hx.le, Nat.ne_of_gt hx, ih fun a ha => h a (by simp [ha])]
  rw [key _ (by simp), List.range_succ]

/-! ### Blocks -/

/-- An element of a materialised matrix is the function's value. -/
@[simp] theorem blockAt_blockOf (n : Nat) (f : Nat → Nat → Int) {i j : Nat} (hi : i < n) (hj : j < n) :
    blockAt (blockOf n f) i j = f i j := by
  simp [blockAt, blockOf, hi, hj]

/-- Some element of the matrix satisfies `p`, by its positions. -/
theorem anyElement_eq_true (n : Nat) (b : Block) (p : Int → Bool) :
    anyElement n b p = true ↔ ∃ i < n, ∃ j < n, p (blockAt b i j) = true := by
  simp [anyElement, List.any_eq_true, List.mem_range]

/-- Every element of the matrix falsifies `p`, by its positions. -/
theorem anyElement_eq_false (n : Nat) (b : Block) (p : Int → Bool) :
    anyElement n b p = false ↔ ∀ i < n, ∀ j < n, p (blockAt b i j) = false := by
  simp [anyElement, List.any_eq_false, List.mem_range]

/-- The cells of a block: one for each element, at its cell index (R90). -/
theorem mem_blockCells (c : Snapshot) (br bc : Nat) (b : Block) (k : Nat) (v : BitVec w) :
    (k, v) ∈ c.blockCells w br bc b ↔
      ∃ i < c.n, ∃ j < c.n, k = c.cellIndex br bc i j ∧ v = BitVec.ofInt w (blockAt b i j) := by
  simp only [Snapshot.blockCells, List.mem_flatMap, List.mem_map, List.mem_range, Prod.mk.injEq]
  constructor
  · rintro ⟨i, hi, j, hj, h1, h2⟩
    exact ⟨i, hi, j, hj, h1.symm, h2.symm⟩
  · rintro ⟨i, hi, j, hj, h1, h2⟩
    exact ⟨i, hi, j, hj, h1.symm, h2.symm⟩

/-- The indices of a block's cells. -/
theorem mem_keys_blockCells (c : Snapshot) (br bc : Nat) (b : Block) (k : Nat) :
    k ∈ (c.blockCells w br bc b).map Prod.fst ↔ ∃ i < c.n, ∃ j < c.n, k = c.cellIndex br bc i j := by
  simp only [List.mem_map, Prod.exists, exists_and_right, exists_eq_right]
  constructor
  · rintro ⟨v, hv⟩
    obtain ⟨i, hi, j, hj, hk, -⟩ := (mem_blockCells c br bc b k v).1 hv
    exact ⟨i, hi, j, hj, hk⟩
  · rintro ⟨i, hi, j, hj, hk⟩
    exact ⟨_, (mem_blockCells c br bc b k _).2 ⟨i, hi, j, hj, hk, rfl⟩⟩

/-- A column inside the plane: `bc·N + j < W` when `bc < BCOLS` and `j < N`. -/
theorem column_lt (c : Snapshot) {bc j : Nat} (hbc : bc < c.bcols) (hj : j < c.n) : bc * c.n + j < c.w := by
  have h1 : c.bcols * c.n ≤ c.w := Nat.div_mul_le_self _ _
  have h2 : (bc + 1) * c.n ≤ c.bcols * c.n := Nat.mul_le_mul_right _ hbc
  rw [Nat.add_mul, Nat.one_mul] at h2
  omega

/-- A row inside the plane: `br·N + i < H` when `br < BROWS` and `i < N`. -/
theorem row_lt (c : Snapshot) {br i : Nat} (hbr : br < c.brows) (hi : i < c.n) : br * c.n + i < c.h := by
  have h1 : c.brows * c.n ≤ c.h := Nat.div_mul_le_self _ _
  have h2 : (br + 1) * c.n ≤ c.brows * c.n := Nat.mul_le_mul_right _ hbr
  rw [Nat.add_mul, Nat.one_mul] at h2
  omega

/-- A pair written as `y·m + x` with `x < m` is read back in one way. -/
theorem raster_inj {m x y x' y' : Nat} (hx : x < m) (hx' : x' < m) (h : y * m + x = y' * m + x') :
    y = y' ∧ x = x' := by
  have hm : 0 < m := by omega
  have h1 : (y * m + x) / m = y := by
    rw [Nat.add_comm, Nat.add_mul_div_right _ _ hm, Nat.div_eq_of_lt hx, Nat.zero_add]
  have h2 : (y' * m + x') / m = y' := by
    rw [Nat.add_comm, Nat.add_mul_div_right _ _ hm, Nat.div_eq_of_lt hx', Nat.zero_add]
  have hy : y = y' := by rw [← h1, ← h2, h]
  subst hy
  exact ⟨rfl, by omega⟩

/-- The block size is positive. -/
theorem Snapshot.n_pos (c : Snapshot) : 0 < c.n := by
  unfold Snapshot.n
  split <;> decide

/-- Two elements of blocks of the grid share a cell only when they are the same element of the same block (R135). -/
theorem cellIndex_inj (c : Snapshot) {br bc i j br' bc' i' j' : Nat} (hbc : bc < c.bcols) (hbc' : bc' < c.bcols)
    (hi : i < c.n) (hj : j < c.n) (hi' : i' < c.n) (hj' : j' < c.n)
    (h : c.cellIndex br bc i j = c.cellIndex br' bc' i' j') : br = br' ∧ bc = bc' ∧ i = i' ∧ j = j' := by
  have hx := column_lt c hbc hj
  have hx' := column_lt c hbc' hj'
  obtain ⟨hy, hx⟩ := raster_inj hx hx' h
  obtain ⟨h1, h2⟩ := raster_inj hi hi' hy
  obtain ⟨h3, h4⟩ := raster_inj hj hj' hx
  exact ⟨h1, h3, h2, h4⟩

/-- Two blocks of the grid share a block index only when they are the same block (R136). -/
theorem blockIndex_inj (c : Snapshot) {br bc br' bc' : Nat} (hbc : bc < c.bcols) (hbc' : bc' < c.bcols)
    (h : c.blockIndex br bc = c.blockIndex br' bc') : br = br' ∧ bc = bc' :=
  raster_inj hbc hbc' h

/-- No cell of a block of the grid is stored twice. -/
theorem blockCells_nodup (c : Snapshot) {br bc : Nat} (b : Block) (hbc : bc < c.bcols) :
    ((c.blockCells w br bc b).map Prod.fst).Nodup := by
  have e : (c.blockCells w br bc b).map Prod.fst =
      (List.range c.n).flatMap fun i => (List.range c.n).map fun j => c.cellIndex br bc i j := by
    simp [Snapshot.blockCells, List.map_flatMap, Function.comp_def]
  rw [e, List.nodup_flatMap]
  refine ⟨fun i hi => List.Nodup.map_on ?_ List.nodup_range, ?_⟩
  · intro j hj j' hj' h
    exact (cellIndex_inj c hbc hbc (List.mem_range.1 hi) (List.mem_range.1 hj) (List.mem_range.1 hi)
      (List.mem_range.1 hj') h).2.2.2
  · refine List.Pairwise.imp_of_mem ?_ List.nodup_range
    intro i i' hi hi' hne k hk hk'
    simp only [List.mem_map, List.mem_range] at hk hk'
    obtain ⟨j, hj, rfl⟩ := hk
    obtain ⟨j', hj', h⟩ := hk'
    exact hne (cellIndex_inj c hbc hbc (List.mem_range.1 hi) hj (List.mem_range.1 hi') hj' h.symm).2.2.1

/-- A stored block's cell holds the element, as a `w`-bit value. -/
theorem cellGet_storeBlock (c : Snapshot) (b : Buffer w) (x : Block) {br bc i j : Nat} (hbc : bc < c.bcols)
    (hi : i < c.n) (hj : j < c.n) :
    cellGet (putCells b (c.blockCells w br bc x)) (c.cellIndex br bc i j) = some (BitVec.ofInt w (blockAt x i j)) :=
  cellGet_putCells_mem _ b (blockCells_nodup c x hbc)
    ((mem_blockCells c br bc x _ _).2 ⟨i, hi, j, hj, rfl, rfl⟩)

/-- Storing a block leaves every other cell alone. -/
theorem cellGet_storeBlock_other (c : Snapshot) (b : Buffer w) (x : Block) {br bc k : Nat}
    (h : ¬∃ i < c.n, ∃ j < c.n, k = c.cellIndex br bc i j) :
    cellGet (putCells b (c.blockCells w br bc x)) k = cellGet b k :=
  cellGet_putCells_other _ b fun hk => h ((mem_keys_blockCells c br bc x k).1 hk)

/-- The step to the next block in raster order raises the block index by one and stays in the grid (R136). -/
theorem nextBlock_spec (c : Snapshot) {br bc br' bc' : Nat} (hbr : br < c.brows) (hbc : bc < c.bcols)
    (h : c.nextBlock br bc = some (br', bc')) :
    c.blockIndex br' bc' = c.blockIndex br bc + 1 ∧ br' < c.brows ∧ bc' < c.bcols := by
  unfold Snapshot.nextBlock at h
  split at h
  · simp only [Option.some.injEq, Prod.mk.injEq] at h
    obtain ⟨rfl, rfl⟩ := h
    exact ⟨by simp [Snapshot.blockIndex, Nat.add_assoc], hbr, by assumption⟩
  · split at h
    · simp only [Option.some.injEq, Prod.mk.injEq] at h
      obtain ⟨rfl, rfl⟩ := h
      refine ⟨?_, by assumption, by omega⟩
      have : bc + 1 = c.bcols := by omega
      simp only [Snapshot.blockIndex, Nat.add_mul, Nat.one_mul]
      omega
    · simp at h

/-- There is no next block exactly after the last block of the grid (R136). -/
theorem nextBlock_none (c : Snapshot) {br bc : Nat} (hbr : br < c.brows) (hbc : bc < c.bcols)
    (h : c.nextBlock br bc = none) : c.blockIndex br bc + 1 = c.brows * c.bcols := by
  unfold Snapshot.nextBlock at h
  split at h
  · simp at h
  · split at h
    · simp at h
    · have h1 : bc + 1 = c.bcols := by omega
      have h2 : br + 1 = c.brows := by omega
      rw [← h2, Nat.add_mul, Nat.one_mul]
      simp only [Snapshot.blockIndex]
      omega

/-- A block of the grid lies before the number of its blocks in raster order. -/
theorem blockIndex_lt (c : Snapshot) {br bc : Nat} (hbr : br < c.brows) (hbc : bc < c.bcols) :
    c.blockIndex br bc < c.brows * c.bcols := by
  have h : (br + 1) * c.bcols ≤ c.brows * c.bcols := Nat.mul_le_mul_right _ hbr
  rw [Nat.add_mul, Nat.one_mul] at h
  simp only [Snapshot.blockIndex]
  omega

end Sys2Proof.Machine
end

