-- ==== Sys2Proof/Laws/State.lean ====
section
/-! SUPPORT. The field lemmas of the state updates: for each update and each field, what the field holds after it. No
proof has to unfold a record update. -/

namespace Sys2Proof.Machine

/-! ### accept -/

@[simp] theorem State.accept_ctrl (s : State) (w : Word) : (s.accept w).ctrl = s.ctrl := rfl
@[simp] theorem State.accept_plane (s : State) (w : Word) : (s.accept w).plane = s.plane := rfl
@[simp] theorem State.accept_width (s : State) (w : Word) : (s.accept w).width = s.width := rfl
@[simp] theorem State.accept_height (s : State) (w : Word) : (s.accept w).height = s.height := rfl
@[simp] theorem State.accept_geom (s : State) (w : Word) : (s.accept w).geom = s.geom := rfl
@[simp] theorem State.accept_lastCmd (s : State) (w : Word) : (s.accept w).lastCmd = w := rfl
@[simp] theorem State.accept_status (s : State) (w : Word) :
    (s.accept w).status = { s.status with done := false } := rfl
@[simp] theorem State.accept_errpos (s : State) (w : Word) : (s.accept w).errpos = s.errpos := rfl
@[simp] theorem State.accept_nblk (s : State) (w : Word) : (s.accept w).nblk = 0#32 := rfl
@[simp] theorem State.accept_modesel (s : State) (w : Word) : (s.accept w).modesel = s.modesel := rfl
@[simp] theorem State.accept_metD (s : State) (w : Word) : (s.accept w).metD = s.metD := rfl
@[simp] theorem State.accept_metV (s : State) (w : Word) : (s.accept w).metV = s.metV := rfl
@[simp] theorem State.accept_metH (s : State) (w : Word) : (s.accept w).metH = s.metH := rfl
@[simp] theorem State.accept_phase (s : State) (w : Word) : (s.accept w).phase = .start := rfl
@[simp] theorem State.accept_snap (s : State) (w : Word) : (s.accept w).snap = s.liveConfig := rfl
@[simp] theorem State.accept_capacity (s : State) (w : Word) : (s.accept w).capacity = s.capacity := rfl
@[simp] theorem State.accept_resetLine (s : State) (w : Word) : (s.accept w).resetLine = s.resetLine := rfl
@[simp] theorem State.accept_resets (s : State) (w : Word) : (s.accept w).resets = s.resets := rfl
@[simp] theorem State.accept_pending (s : State) (w : Word) : (s.accept w).pending = s.pending := rfl
@[simp] theorem State.accept_answers (s : State) (w : Word) : (s.accept w).answers = s.answers := rfl
@[simp] theorem State.accept_mem (s : State) (w : Word) : (s.accept w).mem = s.mem := rfl

/-! ### dropWrite -/

@[simp] theorem State.dropWrite_ctrl (s : State) : (s.dropWrite).ctrl = s.ctrl := rfl
@[simp] theorem State.dropWrite_plane (s : State) : (s.dropWrite).plane = s.plane := rfl
@[simp] theorem State.dropWrite_width (s : State) : (s.dropWrite).width = s.width := rfl
@[simp] theorem State.dropWrite_height (s : State) : (s.dropWrite).height = s.height := rfl
@[simp] theorem State.dropWrite_geom (s : State) : (s.dropWrite).geom = s.geom := rfl
@[simp] theorem State.dropWrite_lastCmd (s : State) : (s.dropWrite).lastCmd = s.lastCmd := rfl
@[simp] theorem State.dropWrite_status (s : State) : (s.dropWrite).status = { s.status with drop := true } := rfl
@[simp] theorem State.dropWrite_errpos (s : State) : (s.dropWrite).errpos = s.errpos := rfl
@[simp] theorem State.dropWrite_nblk (s : State) : (s.dropWrite).nblk = s.nblk := rfl
@[simp] theorem State.dropWrite_modesel (s : State) : (s.dropWrite).modesel = s.modesel := rfl
@[simp] theorem State.dropWrite_metD (s : State) : (s.dropWrite).metD = s.metD := rfl
@[simp] theorem State.dropWrite_metV (s : State) : (s.dropWrite).metV = s.metV := rfl
@[simp] theorem State.dropWrite_metH (s : State) : (s.dropWrite).metH = s.metH := rfl
@[simp] theorem State.dropWrite_phase (s : State) : (s.dropWrite).phase = s.phase := rfl
@[simp] theorem State.dropWrite_snap (s : State) : (s.dropWrite).snap = s.snap := rfl
@[simp] theorem State.dropWrite_capacity (s : State) : (s.dropWrite).capacity = s.capacity := rfl
@[simp] theorem State.dropWrite_resetLine (s : State) : (s.dropWrite).resetLine = s.resetLine := rfl
@[simp] theorem State.dropWrite_resets (s : State) : (s.dropWrite).resets = s.resets := rfl
@[simp] theorem State.dropWrite_pending (s : State) : (s.dropWrite).pending = s.pending := rfl
@[simp] theorem State.dropWrite_answers (s : State) : (s.dropWrite).answers = s.answers := rfl
@[simp] theorem State.dropWrite_mem (s : State) : (s.dropWrite).mem = s.mem := rfl

/-! ### complete -/

@[simp] theorem State.complete_ctrl (s : State) : (s.complete).ctrl = s.ctrl := rfl
@[simp] theorem State.complete_plane (s : State) : (s.complete).plane = s.plane := rfl
@[simp] theorem State.complete_width (s : State) : (s.complete).width = s.width := rfl
@[simp] theorem State.complete_height (s : State) : (s.complete).height = s.height := rfl
@[simp] theorem State.complete_geom (s : State) : (s.complete).geom = s.geom := rfl
@[simp] theorem State.complete_lastCmd (s : State) : (s.complete).lastCmd = s.lastCmd := rfl
@[simp] theorem State.complete_status (s : State) : (s.complete).status = { s.status with done := true } := rfl
@[simp] theorem State.complete_errpos (s : State) : (s.complete).errpos = s.errpos := rfl
@[simp] theorem State.complete_nblk (s : State) : (s.complete).nblk = s.nblk := rfl
@[simp] theorem State.complete_modesel (s : State) : (s.complete).modesel = s.modesel := rfl
@[simp] theorem State.complete_metD (s : State) : (s.complete).metD = s.metD := rfl
@[simp] theorem State.complete_metV (s : State) : (s.complete).metV = s.metV := rfl
@[simp] theorem State.complete_metH (s : State) : (s.complete).metH = s.metH := rfl
@[simp] theorem State.complete_phase (s : State) : (s.complete).phase = .idle := rfl
@[simp] theorem State.complete_snap (s : State) : (s.complete).snap = s.snap := rfl
@[simp] theorem State.complete_capacity (s : State) : (s.complete).capacity = s.capacity := rfl
@[simp] theorem State.complete_resetLine (s : State) : (s.complete).resetLine = s.resetLine := rfl
@[simp] theorem State.complete_resets (s : State) : (s.complete).resets = s.resets := rfl
@[simp] theorem State.complete_pending (s : State) : (s.complete).pending = s.pending := rfl
@[simp] theorem State.complete_answers (s : State) : (s.complete).answers = s.answers := rfl
@[simp] theorem State.complete_mem (s : State) : (s.complete).mem = s.mem := rfl

/-! ### raise -/

@[simp] theorem State.raise_ctrl (s : State) (f : Failure) : (s.raise f).ctrl = s.ctrl := rfl
@[simp] theorem State.raise_plane (s : State) (f : Failure) : (s.raise f).plane = s.plane := rfl
@[simp] theorem State.raise_width (s : State) (f : Failure) : (s.raise f).width = s.width := rfl
@[simp] theorem State.raise_height (s : State) (f : Failure) : (s.raise f).height = s.height := rfl
@[simp] theorem State.raise_geom (s : State) (f : Failure) : (s.raise f).geom = s.geom := rfl
@[simp] theorem State.raise_lastCmd (s : State) (f : Failure) : (s.raise f).lastCmd = s.lastCmd := rfl
@[simp] theorem State.raise_status (s : State) (f : Failure) :
    (s.raise f).status = { s.status with cause := f.cause, err := true, done := false } := rfl
@[simp] theorem State.raise_errpos (s : State) (f : Failure) : (s.raise f).errpos = positionWord f.br f.bc := rfl
@[simp] theorem State.raise_nblk (s : State) (f : Failure) : (s.raise f).nblk = 0#32 := rfl
@[simp] theorem State.raise_modesel (s : State) (f : Failure) : (s.raise f).modesel = s.modesel := rfl
@[simp] theorem State.raise_metD (s : State) (f : Failure) : (s.raise f).metD = s.metD := rfl
@[simp] theorem State.raise_metV (s : State) (f : Failure) : (s.raise f).metV = s.metV := rfl
@[simp] theorem State.raise_metH (s : State) (f : Failure) : (s.raise f).metH = s.metH := rfl
@[simp] theorem State.raise_phase (s : State) (f : Failure) : (s.raise f).phase = .idle := rfl
@[simp] theorem State.raise_snap (s : State) (f : Failure) : (s.raise f).snap = s.snap := rfl
@[simp] theorem State.raise_capacity (s : State) (f : Failure) : (s.raise f).capacity = s.capacity := rfl
@[simp] theorem State.raise_resetLine (s : State) (f : Failure) : (s.raise f).resetLine = s.resetLine := rfl
@[simp] theorem State.raise_resets (s : State) (f : Failure) : (s.raise f).resets = s.resets := rfl
@[simp] theorem State.raise_pending (s : State) (f : Failure) : (s.raise f).pending = s.pending := rfl
@[simp] theorem State.raise_answers (s : State) (f : Failure) : (s.raise f).answers = s.answers := rfl
@[simp] theorem State.raise_mem (s : State) (f : Failure) : (s.raise f).mem = s.mem := rfl

/-! ### clearError -/

@[simp] theorem State.clearError_ctrl (s : State) : (s.clearError).ctrl = s.ctrl := rfl
@[simp] theorem State.clearError_plane (s : State) : (s.clearError).plane = s.plane := rfl
@[simp] theorem State.clearError_width (s : State) : (s.clearError).width = s.width := rfl
@[simp] theorem State.clearError_height (s : State) : (s.clearError).height = s.height := rfl
@[simp] theorem State.clearError_geom (s : State) : (s.clearError).geom = s.geom := rfl
@[simp] theorem State.clearError_lastCmd (s : State) : (s.clearError).lastCmd = s.lastCmd := rfl
@[simp] theorem State.clearError_status (s : State) :
    (s.clearError).status = { s.status with err := false, cause := .none } := rfl
@[simp] theorem State.clearError_errpos (s : State) : (s.clearError).errpos = 0#32 := rfl
@[simp] theorem State.clearError_nblk (s : State) : (s.clearError).nblk = s.nblk := rfl
@[simp] theorem State.clearError_modesel (s : State) : (s.clearError).modesel = s.modesel := rfl
@[simp] theorem State.clearError_metD (s : State) : (s.clearError).metD = s.metD := rfl
@[simp] theorem State.clearError_metV (s : State) : (s.clearError).metV = s.metV := rfl
@[simp] theorem State.clearError_metH (s : State) : (s.clearError).metH = s.metH := rfl
@[simp] theorem State.clearError_phase (s : State) : (s.clearError).phase = s.phase := rfl
@[simp] theorem State.clearError_snap (s : State) : (s.clearError).snap = s.snap := rfl
@[simp] theorem State.clearError_capacity (s : State) : (s.clearError).capacity = s.capacity := rfl
@[simp] theorem State.clearError_resetLine (s : State) : (s.clearError).resetLine = s.resetLine := rfl
@[simp] theorem State.clearError_resets (s : State) : (s.clearError).resets = s.resets := rfl
@[simp] theorem State.clearError_pending (s : State) : (s.clearError).pending = s.pending := rfl
@[simp] theorem State.clearError_answers (s : State) : (s.clearError).answers = s.answers := rfl
@[simp] theorem State.clearError_mem (s : State) : (s.clearError).mem = s.mem := rfl

/-! ### releaseReset -/

@[simp] theorem State.releaseReset_ctrl (s : State) : (s.releaseReset).ctrl = s.ctrl := rfl
@[simp] theorem State.releaseReset_plane (s : State) : (s.releaseReset).plane = s.plane := rfl
@[simp] theorem State.releaseReset_width (s : State) : (s.releaseReset).width = s.width := rfl
@[simp] theorem State.releaseReset_height (s : State) : (s.releaseReset).height = s.height := rfl
@[simp] theorem State.releaseReset_geom (s : State) : (s.releaseReset).geom = s.geom := rfl
@[simp] theorem State.releaseReset_lastCmd (s : State) : (s.releaseReset).lastCmd = s.lastCmd := rfl
@[simp] theorem State.releaseReset_status (s : State) : (s.releaseReset).status = s.status := rfl
@[simp] theorem State.releaseReset_errpos (s : State) : (s.releaseReset).errpos = s.errpos := rfl
@[simp] theorem State.releaseReset_nblk (s : State) : (s.releaseReset).nblk = s.nblk := rfl
@[simp] theorem State.releaseReset_modesel (s : State) : (s.releaseReset).modesel = s.modesel := rfl
@[simp] theorem State.releaseReset_metD (s : State) : (s.releaseReset).metD = s.metD := rfl
@[simp] theorem State.releaseReset_metV (s : State) : (s.releaseReset).metV = s.metV := rfl
@[simp] theorem State.releaseReset_metH (s : State) : (s.releaseReset).metH = s.metH := rfl
@[simp] theorem State.releaseReset_phase (s : State) : (s.releaseReset).phase = s.phase := rfl
@[simp] theorem State.releaseReset_snap (s : State) : (s.releaseReset).snap = s.snap := rfl
@[simp] theorem State.releaseReset_capacity (s : State) : (s.releaseReset).capacity = s.capacity := rfl
@[simp] theorem State.releaseReset_resetLine (s : State) : (s.releaseReset).resetLine = false := rfl
@[simp] theorem State.releaseReset_resets (s : State) : (s.releaseReset).resets = s.resets := rfl
@[simp] theorem State.releaseReset_pending (s : State) : (s.releaseReset).pending = s.pending := rfl
@[simp] theorem State.releaseReset_answers (s : State) : (s.releaseReset).answers = s.answers := rfl
@[simp] theorem State.releaseReset_mem (s : State) : (s.releaseReset).mem = s.mem := rfl

/-! ### assertReset -/

@[simp] theorem State.assertReset_ctrl (s : State) : (s.assertReset).ctrl = 0#32 := rfl
@[simp] theorem State.assertReset_plane (s : State) : (s.assertReset).plane = 0#32 := rfl
@[simp] theorem State.assertReset_width (s : State) : (s.assertReset).width = 0#32 := rfl
@[simp] theorem State.assertReset_height (s : State) : (s.assertReset).height = 0#32 := rfl
@[simp] theorem State.assertReset_geom (s : State) : (s.assertReset).geom = 0#32 := rfl
@[simp] theorem State.assertReset_lastCmd (s : State) : (s.assertReset).lastCmd = 0#32 := rfl
@[simp] theorem State.assertReset_status (s : State) : (s.assertReset).status = ⟨false, false, false, .none⟩ := rfl
@[simp] theorem State.assertReset_errpos (s : State) : (s.assertReset).errpos = 0#32 := rfl
@[simp] theorem State.assertReset_nblk (s : State) : (s.assertReset).nblk = 0#32 := rfl
@[simp] theorem State.assertReset_modesel (s : State) : (s.assertReset).modesel = 0#32 := rfl
@[simp] theorem State.assertReset_metD (s : State) : (s.assertReset).metD = 0#32 := rfl
@[simp] theorem State.assertReset_metV (s : State) : (s.assertReset).metV = 0#32 := rfl
@[simp] theorem State.assertReset_metH (s : State) : (s.assertReset).metH = 0#32 := rfl
@[simp] theorem State.assertReset_phase (s : State) : (s.assertReset).phase = .idle := rfl
@[simp] theorem State.assertReset_snap (s : State) : (s.assertReset).snap = ⟨false, 0#32, 0#32, 0#32, 0#32⟩ := rfl
@[simp] theorem State.assertReset_capacity (s : State) : (s.assertReset).capacity = s.capacity := rfl
@[simp] theorem State.assertReset_resetLine (s : State) : (s.assertReset).resetLine = true := rfl
@[simp] theorem State.assertReset_resets (s : State) : (s.assertReset).resets = s.resets + 1 := rfl
@[simp] theorem State.assertReset_pending (s : State) : (s.assertReset).pending = s.pending := rfl
@[simp] theorem State.assertReset_answers (s : State) : (s.assertReset).answers = s.answers := rfl
@[simp] theorem State.assertReset_mem_orig (s : State) : (s.assertReset).mem.orig = [] := rfl
@[simp] theorem State.assertReset_mem_recon (s : State) : (s.assertReset).mem.recon = [] := rfl
@[simp] theorem State.assertReset_mem_res (s : State) : (s.assertReset).mem.res = [] := rfl
@[simp] theorem State.assertReset_mem_coef (s : State) : (s.assertReset).mem.coef = [] := rfl
@[simp] theorem State.assertReset_mem_mode (s : State) : (s.assertReset).mem.mode = [] := rfl
@[simp] theorem State.assertReset_mem_avail (s : State) : (s.assertReset).mem.avail = [] := rfl

/-! ### clearAvail -/

@[simp] theorem State.clearAvail_ctrl (s : State) : (s.clearAvail).ctrl = s.ctrl := rfl
@[simp] theorem State.clearAvail_plane (s : State) : (s.clearAvail).plane = s.plane := rfl
@[simp] theorem State.clearAvail_width (s : State) : (s.clearAvail).width = s.width := rfl
@[simp] theorem State.clearAvail_height (s : State) : (s.clearAvail).height = s.height := rfl
@[simp] theorem State.clearAvail_geom (s : State) : (s.clearAvail).geom = s.geom := rfl
@[simp] theorem State.clearAvail_lastCmd (s : State) : (s.clearAvail).lastCmd = s.lastCmd := rfl
@[simp] theorem State.clearAvail_status (s : State) : (s.clearAvail).status = s.status := rfl
@[simp] theorem State.clearAvail_errpos (s : State) : (s.clearAvail).errpos = s.errpos := rfl
@[simp] theorem State.clearAvail_nblk (s : State) : (s.clearAvail).nblk = s.nblk := rfl
@[simp] theorem State.clearAvail_modesel (s : State) : (s.clearAvail).modesel = s.modesel := rfl
@[simp] theorem State.clearAvail_metD (s : State) : (s.clearAvail).metD = s.metD := rfl
@[simp] theorem State.clearAvail_metV (s : State) : (s.clearAvail).metV = s.metV := rfl
@[simp] theorem State.clearAvail_metH (s : State) : (s.clearAvail).metH = s.metH := rfl
@[simp] theorem State.clearAvail_phase (s : State) : (s.clearAvail).phase = s.phase := rfl
@[simp] theorem State.clearAvail_snap (s : State) : (s.clearAvail).snap = s.snap := rfl
@[simp] theorem State.clearAvail_capacity (s : State) : (s.clearAvail).capacity = s.capacity := rfl
@[simp] theorem State.clearAvail_resetLine (s : State) : (s.clearAvail).resetLine = s.resetLine := rfl
@[simp] theorem State.clearAvail_resets (s : State) : (s.clearAvail).resets = s.resets := rfl
@[simp] theorem State.clearAvail_pending (s : State) : (s.clearAvail).pending = s.pending := rfl
@[simp] theorem State.clearAvail_answers (s : State) : (s.clearAvail).answers = s.answers := rfl
@[simp] theorem State.clearAvail_mem_orig (s : State) : (s.clearAvail).mem.orig = s.mem.orig := rfl
@[simp] theorem State.clearAvail_mem_recon (s : State) : (s.clearAvail).mem.recon = s.mem.recon := rfl
@[simp] theorem State.clearAvail_mem_res (s : State) : (s.clearAvail).mem.res = s.mem.res := rfl
@[simp] theorem State.clearAvail_mem_coef (s : State) : (s.clearAvail).mem.coef = s.mem.coef := rfl
@[simp] theorem State.clearAvail_mem_mode (s : State) : (s.clearAvail).mem.mode = s.mem.mode := rfl
@[simp] theorem State.clearAvail_mem_avail (s : State) : (s.clearAvail).mem.avail = [] := rfl

/-! ### encodeBlock -/

@[simp] theorem State.encodeBlock_ctrl (s : State) (br bc : Nat) : (s.encodeBlock br bc).ctrl = s.ctrl := rfl
@[simp] theorem State.encodeBlock_plane (s : State) (br bc : Nat) : (s.encodeBlock br bc).plane = s.plane := rfl
@[simp] theorem State.encodeBlock_width (s : State) (br bc : Nat) : (s.encodeBlock br bc).width = s.width := rfl
@[simp] theorem State.encodeBlock_height (s : State) (br bc : Nat) : (s.encodeBlock br bc).height = s.height := rfl
@[simp] theorem State.encodeBlock_geom (s : State) (br bc : Nat) : (s.encodeBlock br bc).geom = s.geom := rfl
@[simp] theorem State.encodeBlock_lastCmd (s : State) (br bc : Nat) : (s.encodeBlock br bc).lastCmd = s.lastCmd := rfl
@[simp] theorem State.encodeBlock_status (s : State) (br bc : Nat) : (s.encodeBlock br bc).status = s.status := rfl
@[simp] theorem State.encodeBlock_errpos (s : State) (br bc : Nat) : (s.encodeBlock br bc).errpos = s.errpos := rfl
@[simp] theorem State.encodeBlock_nblk (s : State) (br bc : Nat) : (s.encodeBlock br bc).nblk = s.nblk + 1#32 := rfl
@[simp] theorem State.encodeBlock_modesel (s : State) (br bc : Nat) :
    (s.encodeBlock br bc).modesel = modeselWord (s.selectedMode br bc) (candidates br bc) := rfl
@[simp] theorem State.encodeBlock_metD (s : State) (br bc : Nat) :
    (s.encodeBlock br bc).metD = s.metricWord br bc .diagonal := rfl
@[simp] theorem State.encodeBlock_metV (s : State) (br bc : Nat) :
    (s.encodeBlock br bc).metV = s.metricWord br bc .vertical := rfl
@[simp] theorem State.encodeBlock_metH (s : State) (br bc : Nat) :
    (s.encodeBlock br bc).metH = s.metricWord br bc .horizontal := rfl
@[simp] theorem State.encodeBlock_phase (s : State) (br bc : Nat) : (s.encodeBlock br bc).phase = s.phase := rfl
@[simp] theorem State.encodeBlock_snap (s : State) (br bc : Nat) : (s.encodeBlock br bc).snap = s.snap := rfl
@[simp] theorem State.encodeBlock_capacity (s : State) (br bc : Nat) :
    (s.encodeBlock br bc).capacity = s.capacity := rfl
@[simp] theorem State.encodeBlock_resetLine (s : State) (br bc : Nat) :
    (s.encodeBlock br bc).resetLine = s.resetLine := rfl
@[simp] theorem State.encodeBlock_resets (s : State) (br bc : Nat) : (s.encodeBlock br bc).resets = s.resets := rfl
@[simp] theorem State.encodeBlock_pending (s : State) (br bc : Nat) : (s.encodeBlock br bc).pending = s.pending := rfl
@[simp] theorem State.encodeBlock_answers (s : State) (br bc : Nat) : (s.encodeBlock br bc).answers = s.answers := rfl
@[simp] theorem State.encodeBlock_mem_orig (s : State) (br bc : Nat) :
    (s.encodeBlock br bc).mem.orig = s.mem.orig := rfl
@[simp] theorem State.encodeBlock_mem_recon (s : State) (br bc : Nat) :
    (s.encodeBlock br bc).mem.recon =
      putCells s.mem.recon (s.snap.blockCells 16 br bc (s.encodeReconstruction br bc)) := rfl
@[simp] theorem State.encodeBlock_mem_res (s : State) (br bc : Nat) :
    (s.encodeBlock br bc).mem.res = putCells s.mem.res (s.snap.blockCells 32 br bc (s.encodeResidual br bc)) := rfl
@[simp] theorem State.encodeBlock_mem_coef (s : State) (br bc : Nat) :
    (s.encodeBlock br bc).mem.coef =
      putCells s.mem.coef (s.snap.blockCells 32 br bc (s.encodeCoefficients br bc)) := rfl
@[simp] theorem State.encodeBlock_mem_mode (s : State) (br bc : Nat) :
    (s.encodeBlock br bc).mem.mode =
      cellPut s.mem.mode (s.snap.blockIndex br bc) ((s.selectedMode br bc).tag.setWidth 8) := rfl
@[simp] theorem State.encodeBlock_mem_avail (s : State) (br bc : Nat) :
    (s.encodeBlock br bc).mem.avail = availPut s.mem.avail (s.snap.blockIndex br bc) := rfl

/-! ### decodeBlock -/

@[simp] theorem State.decodeBlock_ctrl (s : State) (br bc : Nat) : (s.decodeBlock br bc).ctrl = s.ctrl := rfl
@[simp] theorem State.decodeBlock_plane (s : State) (br bc : Nat) : (s.decodeBlock br bc).plane = s.plane := rfl
@[simp] theorem State.decodeBlock_width (s : State) (br bc : Nat) : (s.decodeBlock br bc).width = s.width := rfl
@[simp] theorem State.decodeBlock_height (s : State) (br bc : Nat) : (s.decodeBlock br bc).height = s.height := rfl
@[simp] theorem State.decodeBlock_geom (s : State) (br bc : Nat) : (s.decodeBlock br bc).geom = s.geom := rfl
@[simp] theorem State.decodeBlock_lastCmd (s : State) (br bc : Nat) : (s.decodeBlock br bc).lastCmd = s.lastCmd := rfl
@[simp] theorem State.decodeBlock_status (s : State) (br bc : Nat) : (s.decodeBlock br bc).status = s.status := rfl
@[simp] theorem State.decodeBlock_errpos (s : State) (br bc : Nat) : (s.decodeBlock br bc).errpos = s.errpos := rfl
@[simp] theorem State.decodeBlock_nblk (s : State) (br bc : Nat) : (s.decodeBlock br bc).nblk = s.nblk + 1#32 := rfl
@[simp] theorem State.decodeBlock_modesel (s : State) (br bc : Nat) :
    (s.decodeBlock br bc).modesel = modeselWord (s.storedMode br bc) (candidates br bc) := rfl
@[simp] theorem State.decodeBlock_metD (s : State) (br bc : Nat) : (s.decodeBlock br bc).metD = s.metD := rfl
@[simp] theorem State.decodeBlock_metV (s : State) (br bc : Nat) : (s.decodeBlock br bc).metV = s.metV := rfl
@[simp] theorem State.decodeBlock_metH (s : State) (br bc : Nat) : (s.decodeBlock br bc).metH = s.metH := rfl
@[simp] theorem State.decodeBlock_phase (s : State) (br bc : Nat) : (s.decodeBlock br bc).phase = s.phase := rfl
@[simp] theorem State.decodeBlock_snap (s : State) (br bc : Nat) : (s.decodeBlock br bc).snap = s.snap := rfl
@[simp] theorem State.decodeBlock_capacity (s : State) (br bc : Nat) :
    (s.decodeBlock br bc).capacity = s.capacity := rfl
@[simp] theorem State.decodeBlock_resetLine (s : State) (br bc : Nat) :
    (s.decodeBlock br bc).resetLine = s.resetLine := rfl
@[simp] theorem State.decodeBlock_resets (s : State) (br bc : Nat) : (s.decodeBlock br bc).resets = s.resets := rfl
@[simp] theorem State.decodeBlock_pending (s : State) (br bc : Nat) : (s.decodeBlock br bc).pending = s.pending := rfl
@[simp] theorem State.decodeBlock_answers (s : State) (br bc : Nat) : (s.decodeBlock br bc).answers = s.answers := rfl
@[simp] theorem State.decodeBlock_mem_orig (s : State) (br bc : Nat) :
    (s.decodeBlock br bc).mem.orig = s.mem.orig := rfl
@[simp] theorem State.decodeBlock_mem_recon (s : State) (br bc : Nat) :
    (s.decodeBlock br bc).mem.recon =
      putCells s.mem.recon (s.snap.blockCells 16 br bc (s.decodeReconstruction br bc)) := rfl
@[simp] theorem State.decodeBlock_mem_res (s : State) (br bc : Nat) :
    (s.decodeBlock br bc).mem.res = putCells s.mem.res (s.snap.blockCells 32 br bc (s.decodeResidual br bc)) := rfl
@[simp] theorem State.decodeBlock_mem_coef (s : State) (br bc : Nat) :
    (s.decodeBlock br bc).mem.coef = s.mem.coef := rfl
@[simp] theorem State.decodeBlock_mem_mode (s : State) (br bc : Nat) :
    (s.decodeBlock br bc).mem.mode = s.mem.mode := rfl
@[simp] theorem State.decodeBlock_mem_avail (s : State) (br bc : Nat) :
    (s.decodeBlock br bc).mem.avail = availPut s.mem.avail (s.snap.blockIndex br bc) := rfl

/-! ### forwardBlock -/

@[simp] theorem State.forwardBlock_ctrl (s : State) (br bc : Nat) : (s.forwardBlock br bc).ctrl = s.ctrl := rfl
@[simp] theorem State.forwardBlock_plane (s : State) (br bc : Nat) : (s.forwardBlock br bc).plane = s.plane := rfl
@[simp] theorem State.forwardBlock_width (s : State) (br bc : Nat) : (s.forwardBlock br bc).width = s.width := rfl
@[simp] theorem State.forwardBlock_height (s : State) (br bc : Nat) : (s.forwardBlock br bc).height = s.height := rfl
@[simp] theorem State.forwardBlock_geom (s : State) (br bc : Nat) : (s.forwardBlock br bc).geom = s.geom := rfl
@[simp] theorem State.forwardBlock_lastCmd (s : State) (br bc : Nat) :
    (s.forwardBlock br bc).lastCmd = s.lastCmd := rfl
@[simp] theorem State.forwardBlock_status (s : State) (br bc : Nat) : (s.forwardBlock br bc).status = s.status := rfl
@[simp] theorem State.forwardBlock_errpos (s : State) (br bc : Nat) : (s.forwardBlock br bc).errpos = s.errpos := rfl
@[simp] theorem State.forwardBlock_nblk (s : State) (br bc : Nat) : (s.forwardBlock br bc).nblk = s.nblk + 1#32 := rfl
@[simp] theorem State.forwardBlock_modesel (s : State) (br bc : Nat) :
    (s.forwardBlock br bc).modesel = s.modesel := rfl
@[simp] theorem State.forwardBlock_metD (s : State) (br bc : Nat) : (s.forwardBlock br bc).metD = s.metD := rfl
@[simp] theorem State.forwardBlock_metV (s : State) (br bc : Nat) : (s.forwardBlock br bc).metV = s.metV := rfl
@[simp] theorem State.forwardBlock_metH (s : State) (br bc : Nat) : (s.forwardBlock br bc).metH = s.metH := rfl
@[simp] theorem State.forwardBlock_phase (s : State) (br bc : Nat) : (s.forwardBlock br bc).phase = s.phase := rfl
@[simp] theorem State.forwardBlock_snap (s : State) (br bc : Nat) : (s.forwardBlock br bc).snap = s.snap := rfl
@[simp] theorem State.forwardBlock_capacity (s : State) (br bc : Nat) :
    (s.forwardBlock br bc).capacity = s.capacity := rfl
@[simp] theorem State.forwardBlock_resetLine (s : State) (br bc : Nat) :
    (s.forwardBlock br bc).resetLine = s.resetLine := rfl
@[simp] theorem State.forwardBlock_resets (s : State) (br bc : Nat) : (s.forwardBlock br bc).resets = s.resets := rfl
@[simp] theorem State.forwardBlock_pending (s : State) (br bc : Nat) :
    (s.forwardBlock br bc).pending = s.pending := rfl
@[simp] theorem State.forwardBlock_answers (s : State) (br bc : Nat) :
    (s.forwardBlock br bc).answers = s.answers := rfl
@[simp] theorem State.forwardBlock_mem_orig (s : State) (br bc : Nat) :
    (s.forwardBlock br bc).mem.orig = s.mem.orig := rfl
@[simp] theorem State.forwardBlock_mem_recon (s : State) (br bc : Nat) :
    (s.forwardBlock br bc).mem.recon = s.mem.recon := rfl
@[simp] theorem State.forwardBlock_mem_res (s : State) (br bc : Nat) :
    (s.forwardBlock br bc).mem.res = s.mem.res := rfl
@[simp] theorem State.forwardBlock_mem_coef (s : State) (br bc : Nat) :
    (s.forwardBlock br bc).mem.coef =
      putCells s.mem.coef (s.snap.blockCells 32 br bc (fdct s.snap.n (s.resBlock br bc))) := rfl
@[simp] theorem State.forwardBlock_mem_mode (s : State) (br bc : Nat) :
    (s.forwardBlock br bc).mem.mode = s.mem.mode := rfl
@[simp] theorem State.forwardBlock_mem_avail (s : State) (br bc : Nat) :
    (s.forwardBlock br bc).mem.avail = s.mem.avail := rfl

/-! ### inverseBlock -/

@[simp] theorem State.inverseBlock_ctrl (s : State) (br bc : Nat) : (s.inverseBlock br bc).ctrl = s.ctrl := rfl
@[simp] theorem State.inverseBlock_plane (s : State) (br bc : Nat) : (s.inverseBlock br bc).plane = s.plane := rfl
@[simp] theorem State.inverseBlock_width (s : State) (br bc : Nat) : (s.inverseBlock br bc).width = s.width := rfl
@[simp] theorem State.inverseBlock_height (s : State) (br bc : Nat) : (s.inverseBlock br bc).height = s.height := rfl
@[simp] theorem State.inverseBlock_geom (s : State) (br bc : Nat) : (s.inverseBlock br bc).geom = s.geom := rfl
@[simp] theorem State.inverseBlock_lastCmd (s : State) (br bc : Nat) :
    (s.inverseBlock br bc).lastCmd = s.lastCmd := rfl
@[simp] theorem State.inverseBlock_status (s : State) (br bc : Nat) : (s.inverseBlock br bc).status = s.status := rfl
@[simp] theorem State.inverseBlock_errpos (s : State) (br bc : Nat) : (s.inverseBlock br bc).errpos = s.errpos := rfl
@[simp] theorem State.inverseBlock_nblk (s : State) (br bc : Nat) : (s.inverseBlock br bc).nblk = s.nblk + 1#32 := rfl
@[simp] theorem State.inverseBlock_modesel (s : State) (br bc : Nat) :
    (s.inverseBlock br bc).modesel = s.modesel := rfl
@[simp] theorem State.inverseBlock_metD (s : State) (br bc : Nat) : (s.inverseBlock br bc).metD = s.metD := rfl
@[simp] theorem State.inverseBlock_metV (s : State) (br bc : Nat) : (s.inverseBlock br bc).metV = s.metV := rfl
@[simp] theorem State.inverseBlock_metH (s : State) (br bc : Nat) : (s.inverseBlock br bc).metH = s.metH := rfl
@[simp] theorem State.inverseBlock_phase (s : State) (br bc : Nat) : (s.inverseBlock br bc).phase = s.phase := rfl
@[simp] theorem State.inverseBlock_snap (s : State) (br bc : Nat) : (s.inverseBlock br bc).snap = s.snap := rfl
@[simp] theorem State.inverseBlock_capacity (s : State) (br bc : Nat) :
    (s.inverseBlock br bc).capacity = s.capacity := rfl
@[simp] theorem State.inverseBlock_resetLine (s : State) (br bc : Nat) :
    (s.inverseBlock br bc).resetLine = s.resetLine := rfl
@[simp] theorem State.inverseBlock_resets (s : State) (br bc : Nat) : (s.inverseBlock br bc).resets = s.resets := rfl
@[simp] theorem State.inverseBlock_pending (s : State) (br bc : Nat) :
    (s.inverseBlock br bc).pending = s.pending := rfl
@[simp] theorem State.inverseBlock_answers (s : State) (br bc : Nat) :
    (s.inverseBlock br bc).answers = s.answers := rfl
@[simp] theorem State.inverseBlock_mem_orig (s : State) (br bc : Nat) :
    (s.inverseBlock br bc).mem.orig = s.mem.orig := rfl
@[simp] theorem State.inverseBlock_mem_recon (s : State) (br bc : Nat) :
    (s.inverseBlock br bc).mem.recon = s.mem.recon := rfl
@[simp] theorem State.inverseBlock_mem_res (s : State) (br bc : Nat) :
    (s.inverseBlock br bc).mem.res =
      putCells s.mem.res (s.snap.blockCells 32 br bc (idct s.snap.n (s.coefBlock br bc))) := rfl
@[simp] theorem State.inverseBlock_mem_coef (s : State) (br bc : Nat) :
    (s.inverseBlock br bc).mem.coef = s.mem.coef := rfl
@[simp] theorem State.inverseBlock_mem_mode (s : State) (br bc : Nat) :
    (s.inverseBlock br bc).mem.mode = s.mem.mode := rfl
@[simp] theorem State.inverseBlock_mem_avail (s : State) (br bc : Nat) :
    (s.inverseBlock br bc).mem.avail = s.mem.avail := rfl

end Sys2Proof.Machine
end

