-- ==== Sys2Proof/Laws/Checks.lean ====
section
/-! SUPPORT. What a list of checks does, once: which check fails first, that it changes nothing but the error completion,
and when each check of the rules passes (rules R132, R134, R137, R138, R140, R167, R211, R212, R241, R242). -/

namespace Sys2Proof.Machine

open Sys2Proof.Safety

@[simp] theorem firstFailure_nil : firstFailure [] = none := rfl

@[simp] theorem firstFailure_cons (fails : Bool) (f : Failure) (rest : List (Bool × Failure)) :
    firstFailure ((fails, f) :: rest) = if fails then some f else firstFailure rest := rfl

/-- A list of checks passes when its first check and the rest do. -/
theorem firstFailure_cons_none (fails : Bool) (f : Failure) (rest : List (Bool × Failure)) :
    firstFailure ((fails, f) :: rest) = none ↔ fails = false ∧ firstFailure rest = none := by
  cases fails <;> simp

/-- The checks of two lists, the first list first. -/
theorem firstFailure_append (a b : List (Bool × Failure)) :
    firstFailure (a ++ b) = (firstFailure a).or (firstFailure b) := by
  induction a with
  | nil => simp
  | cons c rest ih =>
    obtain ⟨fails, f⟩ := c
    cases fails <;> simp [ih]

/-- All checks of two lists pass when the checks of each do. -/
theorem firstFailure_append_none (a b : List (Bool × Failure)) :
    firstFailure (a ++ b) = none ↔ firstFailure a = none ∧ firstFailure b = none := by
  simp [firstFailure_append, Option.or_eq_none_iff]

/-- When no check fails, the command goes on to `ok`. -/
theorem State.checked_pass (s ok : State) (checks : List (Bool × Failure)) (h : firstFailure checks = none) :
    s.checked checks ok = .next ok := by
  simp [State.checked, h]

/-- When a check fails, the command ends with the error of the first that does. -/
theorem State.checked_fail (s ok : State) (checks : List (Bool × Failure)) (f : Failure)
    (h : firstFailure checks = some f) : s.checked checks ok = .next (s.raise f) := by
  simp [State.checked, h]

/-- All a checked command can do. -/
theorem State.checked_cases (s ok t : State) (checks : List (Bool × Failure)) (h : s.checked checks ok = .next t) :
    (∃ f, firstFailure checks = some f ∧ t = s.raise f) ∨ (firstFailure checks = none ∧ t = ok) := by
  unfold State.checked at h
  split at h <;> simp_all

/-- The configuration checks pass exactly on a legal configuration (R132 steps 3 and 4, R134). -/
theorem configChecks_pass (s : State) :
    firstFailure s.configChecks = none ↔ ConfigLegal s.snap s.capacity := by
  simp only [State.configChecks, firstFailure_cons_none, Snapshot.shapeLegal, ConfigLegal, decide_eq_false_iff_not,
    Bool.not_eq_false', Bool.and_eq_true, decide_eq_true_eq, firstFailure_nil, and_true, and_assoc, ne_eq]

/-- The geometry check passes exactly when GEOM records the grid (R140). -/
theorem geometryChecks_pass (s : State) : firstFailure s.geometryChecks = none ↔ GeometryRecorded s.snap := by
  simp [State.geometryChecks, GeometryRecorded]

/-- The block range check passes exactly on a block of the grid (R137). -/
theorem rangeChecks_pass (s : State) (br bc : Nat) :
    firstFailure (s.rangeChecks br bc) = none ↔ InGrid s.snap br bc := by
  simp [State.rangeChecks, InGrid]

/-- The causal check passes exactly on a block that is ready (R138). -/
theorem causalChecks_pass (s : State) (br bc : Nat) :
    firstFailure (s.causalChecks br bc) = none ↔ CausallyReady s br bc := by
  simp [State.causalChecks, firstFailure_cons_none, CausallyReady, -firstFailure_cons]

/-- The sample range check passes exactly when every sample is in range (R167). -/
theorem sampleChecks_pass (s : State) (br bc : Nat) :
    firstFailure (s.sampleChecks br bc) = none ↔ SamplesInRange s br bc := by
  simp only [State.sampleChecks, firstFailure_cons, firstFailure_nil, ite_eq_right_iff, reduceCtorEq, imp_false,
    Bool.not_eq_true, anyElement_eq_false, decide_eq_false_iff_not, not_lt, SamplesInRange, State.origBlock]
  constructor
  · intro h i hi j hj
    simpa [hi, hj] using h i hi j hj
  · intro h i hi j hj
    simpa [hi, hj] using h i hi j hj

/-- The residual range check passes exactly when every residual is in range (R211). -/
theorem resChecks_pass (s : State) (br bc : Nat) :
    firstFailure (s.resChecks br bc) = none ↔ ResidualsInRange s br bc := by
  simp only [State.resChecks, firstFailure_cons, firstFailure_nil, ite_eq_right_iff, reduceCtorEq, imp_false,
    Bool.not_eq_true, anyElement_eq_false, decide_eq_false_iff_not, not_lt, ResidualsInRange, State.resBlock]
  constructor
  · intro h i hi j hj
    simpa [hi, hj, resMax] using h i hi j hj
  · intro h i hi j hj
    simpa [hi, hj, resMax] using h i hi j hj

/-- The coefficient range check passes exactly when every coefficient is in range (R212, R242). -/
theorem coefChecks_pass (s : State) (br bc : Nat) :
    firstFailure (s.coefChecks br bc) = none ↔ CoefficientsInRange s br bc := by
  simp only [State.coefChecks, firstFailure_cons, firstFailure_nil, ite_eq_right_iff, reduceCtorEq, imp_false,
    Bool.not_eq_true, anyElement_eq_false, decide_eq_false_iff_not, not_lt, CoefficientsInRange, State.coefBlock]
  constructor
  · intro h i hi j hj
    simpa [hi, hj, coefMax] using h i hi j hj
  · intro h i hi j hj
    simpa [hi, hj, coefMax] using h i hi j hj

/-- The tags of `allowedModes` are the tags of R241's table. -/
theorem mem_allowedModes (br bc : Nat) (mode : PredMode) : mode ∈ allowedModes br bc ↔ TagAllowed br bc mode := by
  cases br <;> cases bc <;> cases mode <;> simp [allowedModes, candidates, TagAllowed]

/-- Bits [7:2] of a byte are 0 exactly when it is below 4 (R106). -/
theorem highBits_eq_zero (v : BitVec 8) : v.extractLsb' 2 6 = 0#6 ↔ v.toNat < 4 := by
  rw [← BitVec.toNat_inj]
  have := v.isLt
  simp only [BitVec.extractLsb'_toNat, Nat.shiftRight_eq_div_pow, BitVec.toNat_ofNat]
  omega

/-- The mode check passes exactly when the stored mode is allowed (R241). -/
theorem modeChecks_pass (s : State) (br bc : Nat) :
    firstFailure (s.modeChecks br bc) = none ↔ StoredModeAllowed s br bc := by
  simp [State.modeChecks, StoredModeAllowed, ← mem_allowedModes, highBits_eq_zero]

/-- All one step of a sweep can do (R247, R249). -/
theorem State.sweep_cases (s t : State) (checks : List (Bool × Failure))
    (content : Nat → Nat → List (Bool × Failure)) (block : Nat → Nat → State)
    (h : s.sweep checks content block = .next t) :
    (∃ f, t = s.raise f) ∨
    ((s.phase = .idle ∨ s.phase = .start) ∧ firstFailure checks = none ∧ t = { s with phase := .validate 0 0 }) ∨
    (∃ br bc, s.phase = .validate br bc ∧ firstFailure (content br bc) = none ∧
      t = { s with phase := s.snap.afterValidate br bc }) ∨
    (s.phase = .clear ∧ t = { s.clearAvail with phase := .process 0 0 }) ∨
    (∃ br bc, s.phase = .process br bc ∧ firstFailure (s.causalChecks br bc ++ content br bc) = none ∧
      t = (block br bc).afterProcess br bc) := by
  unfold State.sweep at h
  split at h
  · rename_i hp
    rcases s.checked_cases _ t _ h with ⟨f, -, rfl⟩ | ⟨h1, h2⟩
    · exact .inl ⟨f, rfl⟩
    · exact .inr (.inl ⟨.inl hp, h1, h2⟩)
  · rename_i hp
    rcases s.checked_cases _ t _ h with ⟨f, -, rfl⟩ | ⟨h1, h2⟩
    · exact .inl ⟨f, rfl⟩
    · exact .inr (.inl ⟨.inr hp, h1, h2⟩)
  · rename_i br bc hp
    rcases s.checked_cases _ t _ h with ⟨f, -, rfl⟩ | ⟨h1, h2⟩
    · exact .inl ⟨f, rfl⟩
    · exact .inr (.inr (.inl ⟨br, bc, hp, h1, h2⟩))
  · rename_i hp
    simp only [Host.Outcome.next.injEq] at h
    exact .inr (.inr (.inr (.inl ⟨hp, h.symm⟩)))
  · rename_i br bc hp
    rcases s.checked_cases _ t _ h with ⟨f, -, rfl⟩ | ⟨h1, h2⟩
    · exact .inl ⟨f, rfl⟩
    · exact .inr (.inr (.inr (.inr ⟨br, bc, hp, h1, h2⟩)))

/-- A processed block completes the sweep or moves the cursor, and changes nothing else (R249). -/
theorem State.afterProcess_cases (s : State) (br bc : Nat) :
    (s.snap.nextBlock br bc = none ∧ s.afterProcess br bc = s.complete) ∨
    (∃ br' bc', s.snap.nextBlock br bc = some (br', bc') ∧
      s.afterProcess br bc = { s with phase := .process br' bc' }) := by
  unfold State.afterProcess
  cases h : s.snap.nextBlock br bc with
  | none => exact .inl ⟨rfl, rfl⟩
  | some p => exact .inr ⟨p.1, p.2, rfl, rfl⟩

end Sys2Proof.Machine
end

