-- ==== Sys2Proof/Laws/Memory.lean ====
section
/-! SUPPORT. Every memory operation keeps the canonical form `Memory.wf`, and the memory after reset has it. -/

namespace Sys2Proof.Machine

/-- The memory after reset is canonical. -/
theorem Memory.reset_wf : Memory.reset.wf := by decide

/-- The reset state's memory is canonical. -/
theorem State.reset_mem_wf : State.reset.mem.wf := Memory.reset_wf

theorem State.clearAvail_wf (s : State) (h : s.mem.wf) : s.clearAvail.mem.wf :=
  ⟨h.1, h.2.1, h.2.2.1, h.2.2.2.1, h.2.2.2.2.1, List.Pairwise.nil⟩

theorem State.assertReset_wf (s : State) : s.assertReset.mem.wf := Memory.reset_wf

theorem State.encodeBlock_wf (s : State) (br bc : Nat) (h : s.mem.wf) : (s.encodeBlock br bc).mem.wf :=
  ⟨h.1, putCells_rising _ _ h.2.1, putCells_rising _ _ h.2.2.1, putCells_rising _ _ h.2.2.2.1,
    cellPut_rising _ _ _ h.2.2.2.2.1, availPut_rising _ _ h.2.2.2.2.2⟩

theorem State.decodeBlock_wf (s : State) (br bc : Nat) (h : s.mem.wf) : (s.decodeBlock br bc).mem.wf :=
  ⟨h.1, putCells_rising _ _ h.2.1, putCells_rising _ _ h.2.2.1, h.2.2.2.1, h.2.2.2.2.1,
    availPut_rising _ _ h.2.2.2.2.2⟩

theorem State.forwardBlock_wf (s : State) (br bc : Nat) (h : s.mem.wf) : (s.forwardBlock br bc).mem.wf :=
  ⟨h.1, h.2.1, h.2.2.1, putCells_rising _ _ h.2.2.2.1, h.2.2.2.2⟩

theorem State.inverseBlock_wf (s : State) (br bc : Nat) (h : s.mem.wf) : (s.inverseBlock br bc).mem.wf :=
  ⟨h.1, h.2.1, putCells_rising _ _ h.2.2.1, h.2.2.2⟩

/-- A host write to a cell keeps the canonical form. -/
theorem State.writeCell_wf (s t : State) (win : Window) (k : Nat) (v : Word) (h : s.mem.wf)
    (ht : s.writeCell win k v = some t) : t.mem.wf := by
  cases win <;> simp only [State.writeCell, Option.some.injEq, reduceCtorEq] at ht
  · subst ht
    exact ⟨cellPut_rising _ _ _ h.1, h.2⟩
  · subst ht
    exact ⟨h.1, h.2.1, cellPut_rising _ _ _ h.2.2.1, h.2.2.2⟩
  · subst ht
    exact ⟨h.1, h.2.1, h.2.2.1, cellPut_rising _ _ _ h.2.2.2.1, h.2.2.2.2⟩
  · subst ht
    exact ⟨h.1, h.2.1, h.2.2.1, h.2.2.2.1, cellPut_rising _ _ _ h.2.2.2.2.1, h.2.2.2.2.2⟩

end Sys2Proof.Machine
end

