-- ==== Sys2Proof/Laws/PerInstr.lean ====
section
/-! SUPPORT. The encodings of the opcode map, command by command (rule R102): each command's word has the bits its row
of the table fixes. -/

namespace Sys2Proof.Laws

/-- Appending bits is multiplying by a power of two and adding. -/
theorem toNat_append_add {m n : Nat} (x : BitVec m) (y : BitVec n) : (x ++ y).toNat = x.toNat * 2 ^ n + y.toNat := by
  rw [BitVec.toNat_append, ← Nat.shiftLeft_add_eq_or_of_lt y.isLt, Nat.shiftLeft_eq]

/-- A command word as a number: `(br << 20) | (bc << 8) | opc` (R109). -/
theorem commandWord_toNat (br bc opc : Nat) :
    (commandWord br bc opc).toNat = br % 4096 * 2 ^ 20 + bc % 4096 * 2 ^ 8 + opc % 16 := by
  simp only [commandWord, toNat_append_add, BitVec.toNat_ofNat]
  omega

/-- A command's row of R102: the mask and the match. -/
def tableRow : Instr → Word × Word
  | .nop => (0xFFFFFFFF#32, 0x00000000#32)
  | .clrav => (0xFFFFFFFF#32, 0x00000001#32)
  | .encb _ _ => (0x000000FF#32, 0x00000002#32)
  | .decb _ _ => (0x000000FF#32, 0x00000003#32)
  | .encp => (0xFFFFFFFF#32, 0x00000004#32)
  | .decp => (0xFFFFFFFF#32, 0x00000005#32)
  | .fdctb _ _ => (0x000000FF#32, 0x00000006#32)
  | .idctb _ _ => (0x000000FF#32, 0x00000007#32)

/-- The low byte of a command word is its RSV and OPC fields. -/
theorem commandWord_low (br bc opc : Nat) (h : opc < 16) :
    commandWord br bc opc &&& 0x000000FF#32 = BitVec.ofNat 32 opc := by
  apply BitVec.eq_of_toNat_eq
  rw [BitVec.toNat_and, commandWord_toNat, BitVec.toNat_ofNat, BitVec.toNat_ofNat,
    show (255 : Nat) % 2 ^ 32 = 2 ^ 8 - 1 by decide, Nat.and_two_pow_sub_one_eq_mod]
  omega

/-- The row a command's word matches: `(w & mask) == match` (R102). -/
def RowMatch.Statement (i : Instr) : Prop := encode i &&& (tableRow i).1 = (tableRow i).2

theorem RowMatch.nop : RowMatch.Statement .nop := by unfold RowMatch.Statement; decide
theorem RowMatch.clrav : RowMatch.Statement .clrav := by unfold RowMatch.Statement; decide
theorem RowMatch.encb (br bc : Nat) : RowMatch.Statement (.encb br bc) := commandWord_low br bc 2 (by decide)
theorem RowMatch.decb (br bc : Nat) : RowMatch.Statement (.decb br bc) := commandWord_low br bc 3 (by decide)
theorem RowMatch.encp : RowMatch.Statement .encp := by unfold RowMatch.Statement; decide
theorem RowMatch.decp : RowMatch.Statement .decp := by unfold RowMatch.Statement; decide
theorem RowMatch.fdctb (br bc : Nat) : RowMatch.Statement (.fdctb br bc) := commandWord_low br bc 6 (by decide)
theorem RowMatch.idctb (br bc : Nat) : RowMatch.Statement (.idctb br bc) := commandWord_low br bc 7 (by decide)

end Sys2Proof.Laws
end

