-- ==== Sys2Proof/Laws/Step.lean ====
section
/-! SUPPORT. Everything one command step, one engine turn and one step of the machine can do, each said once; the
statements' proofs cite these and unfold nothing. -/

namespace Sys2Proof.Machine

open Sys2Proof.Safety

/-- A command step never faults and is never refused: it always has a next state (R131, R281, R341). -/
theorem exec_next (i : Instr) (s : State) : ∃ t, exec i s = .next t := by
  have hc : ∀ (checks : List (Bool × Failure)) (ok : State), ∃ t, s.checked checks ok = .next t := by
    intro checks ok
    cases h : firstFailure checks with
    | none => exact ⟨_, s.checked_pass ok checks h⟩
    | some f => exact ⟨_, s.checked_fail ok checks f h⟩
  have hs : ∀ checks content block, ∃ t, s.sweep checks content block = .next t := by
    intro checks content block
    unfold State.sweep
    split
    · exact hc _ _
    · exact hc _ _
    · exact hc _ _
    · exact ⟨_, rfl⟩
    · exact hc _ _
  cases i with
  | nop => exact ⟨_, rfl⟩
  | clrav => exact ⟨_, rfl⟩
  | encb br bc => exact hc _ _
  | decb br bc => exact hc _ _
  | encp => exact hs _ _ _
  | decp => exact hs _ _ _
  | fdctb br bc => exact hc _ _
  | idctb br bc => exact hc _ _

/-- All a command step can do, whatever the command: end with an error, complete with no block or with one block step,
or take one step of a sweep. -/
theorem exec_cases (i : Instr) (s t : State) (h : exec i s = .next t) :
    (∃ f, t = s.raise f) ∨
    (i = .nop ∧ t = s.complete) ∨
    (i = .clrav ∧ t = s.clearAvail.complete) ∨
    (∃ br bc, i = .encb br bc ∧ ConfigLegal s.snap s.capacity ∧ InGrid s.snap br bc ∧ CausallyReady s br bc ∧
      SamplesInRange s br bc ∧ t = (s.encodeBlock br bc).complete) ∨
    (∃ br bc, i = .decb br bc ∧ ConfigLegal s.snap s.capacity ∧ GeometryRecorded s.snap ∧ InGrid s.snap br bc ∧
      CausallyReady s br bc ∧ StoredModeAllowed s br bc ∧ CoefficientsInRange s br bc ∧
      t = (s.decodeBlock br bc).complete) ∨
    (∃ br bc, i = .fdctb br bc ∧ ConfigLegal s.snap s.capacity ∧ InGrid s.snap br bc ∧ ResidualsInRange s br bc ∧
      t = (s.forwardBlock br bc).complete) ∨
    (∃ br bc, i = .idctb br bc ∧ ConfigLegal s.snap s.capacity ∧ InGrid s.snap br bc ∧ CoefficientsInRange s br bc ∧
      t = (s.inverseBlock br bc).complete) ∨
    ((i = .encp ∨ i = .decp) ∧ (s.phase = .idle ∨ s.phase = .start) ∧ ConfigLegal s.snap s.capacity ∧
      t = { s with phase := .validate 0 0 }) ∨
    (∃ br bc, ((i = .encp ∧ SamplesInRange s br bc) ∨
        (i = .decp ∧ StoredModeAllowed s br bc ∧ CoefficientsInRange s br bc)) ∧
      s.phase = .validate br bc ∧ t = { s with phase := s.snap.afterValidate br bc }) ∨
    ((i = .encp ∨ i = .decp) ∧ s.phase = .clear ∧ t = { s.clearAvail with phase := .process 0 0 }) ∨
    (∃ br bc, s.phase = .process br bc ∧ CausallyReady s br bc ∧
      ((i = .encp ∧ SamplesInRange s br bc ∧ t = (s.encodeBlock br bc).afterProcess br bc) ∨
        (i = .decp ∧ StoredModeAllowed s br bc ∧ CoefficientsInRange s br bc ∧
          t = (s.decodeBlock br bc).afterProcess br bc))) := by
  cases i with
  | nop => exact .inr (.inl ⟨rfl, by simpa [exec, execNop] using h.symm⟩)
  | clrav => exact .inr (.inr (.inl ⟨rfl, by simpa [exec, execClrav] using h.symm⟩))
  | encb br bc =>
    rcases s.checked_cases _ t _ h with ⟨f, -, rfl⟩ | ⟨hp, rfl⟩
    · exact .inl ⟨f, rfl⟩
    · simp only [firstFailure_append_none, configChecks_pass, rangeChecks_pass, causalChecks_pass,
        sampleChecks_pass] at hp
      exact .inr (.inr (.inr (.inl ⟨br, bc, rfl, hp.1.1.1, hp.1.1.2, hp.1.2, hp.2, rfl⟩)))
  | decb br bc =>
    rcases s.checked_cases _ t _ h with ⟨f, -, rfl⟩ | ⟨hp, rfl⟩
    · exact .inl ⟨f, rfl⟩
    · simp only [firstFailure_append_none, configChecks_pass, geometryChecks_pass, rangeChecks_pass,
        causalChecks_pass, modeChecks_pass, coefChecks_pass] at hp
      exact .inr (.inr (.inr (.inr (.inl
        ⟨br, bc, rfl, hp.1.1.1.1.1, hp.1.1.1.1.2, hp.1.1.1.2, hp.1.1.2, hp.1.2, hp.2, rfl⟩))))
  | fdctb br bc =>
    rcases s.checked_cases _ t _ h with ⟨f, -, rfl⟩ | ⟨hp, rfl⟩
    · exact .inl ⟨f, rfl⟩
    · simp only [firstFailure_append_none, configChecks_pass, rangeChecks_pass, resChecks_pass] at hp
      exact .inr (.inr (.inr (.inr (.inr (.inl ⟨br, bc, rfl, hp.1.1, hp.1.2, hp.2, rfl⟩)))))
  | idctb br bc =>
    rcases s.checked_cases _ t _ h with ⟨f, -, rfl⟩ | ⟨hp, rfl⟩
    · exact .inl ⟨f, rfl⟩
    · simp only [firstFailure_append_none, configChecks_pass, rangeChecks_pass, coefChecks_pass] at hp
      exact .inr (.inr (.inr (.inr (.inr (.inr (.inl ⟨br, bc, rfl, hp.1.1, hp.1.2, hp.2, rfl⟩))))))
  | encp =>
    rcases s.sweep_cases t _ _ _ h with hf | ⟨hp, hc, rfl⟩ | ⟨br, bc, hp, hc, rfl⟩ | ⟨hp, rfl⟩ | ⟨br, bc, hp, hc, rfl⟩
    · exact .inl hf
    · rw [configChecks_pass] at hc
      exact .inr (.inr (.inr (.inr (.inr (.inr (.inr (.inl ⟨.inl rfl, hp, hc, rfl⟩)))))))
    · rw [sampleChecks_pass] at hc
      exact .inr (.inr (.inr (.inr (.inr (.inr (.inr (.inr (.inl ⟨br, bc, .inl ⟨rfl, hc⟩, hp, rfl⟩))))))))
    · exact .inr (.inr (.inr (.inr (.inr (.inr (.inr (.inr (.inr (.inl ⟨.inl rfl, hp, rfl⟩)))))))))
    · rw [firstFailure_append_none, causalChecks_pass, sampleChecks_pass] at hc
      exact .inr (.inr (.inr (.inr (.inr (.inr (.inr (.inr (.inr (.inr
        ⟨br, bc, hp, hc.1, .inl ⟨rfl, hc.2, rfl⟩⟩)))))))))
  | decp =>
    rcases s.sweep_cases t _ _ _ h with hf | ⟨hp, hc, rfl⟩ | ⟨br, bc, hp, hc, rfl⟩ | ⟨hp, rfl⟩ | ⟨br, bc, hp, hc, rfl⟩
    · exact .inl hf
    · rw [firstFailure_append_none, configChecks_pass] at hc
      exact .inr (.inr (.inr (.inr (.inr (.inr (.inr (.inl ⟨.inr rfl, hp, hc.1, rfl⟩)))))))
    · simp only [firstFailure_append_none, modeChecks_pass, coefChecks_pass] at hc
      exact .inr (.inr (.inr (.inr (.inr (.inr (.inr (.inr (.inl
        ⟨br, bc, .inr ⟨rfl, hc.1, hc.2⟩, hp, rfl⟩))))))))
    · exact .inr (.inr (.inr (.inr (.inr (.inr (.inr (.inr (.inr (.inl ⟨.inr rfl, hp, rfl⟩)))))))))
    · simp only [firstFailure_append_none, causalChecks_pass, modeChecks_pass, coefChecks_pass] at hc
      exact .inr (.inr (.inr (.inr (.inr (.inr (.inr (.inr (.inr (.inr
        ⟨br, bc, hp, hc.1, .inr ⟨rfl, hc.2.1, hc.2.2, rfl⟩⟩)))))))))

/-- All an engine turn can do (R103, R132, R343). -/
theorem engineTurn_cases (s t : State) (h : s.engineTurn = .next t) :
    ((s.resetLine = true ∨ s.phase = .idle) ∧ t = s) ∨
    (s.resetLine = false ∧ s.busy = true ∧
      ((∃ e, decode s.lastCmd = .error e ∧ t = s.raise ⟨.badCmd, 0, 0⟩) ∨
        (∃ i, decode s.lastCmd = .ok i ∧ exec i s = .next t))) := by
  unfold State.engineTurn at h
  split at h
  · rename_i hc
    simp only [Bool.or_eq_true, Bool.not_eq_true', State.busy, ne_eq, decide_not, Bool.not_eq_false',
      decide_eq_true_eq] at hc
    simp only [Host.Outcome.next.injEq] at h
    exact .inl ⟨hc, h.symm⟩
  · rename_i hc
    simp only [Bool.or_eq_true, Bool.not_eq_true', not_or, Bool.not_eq_true, Bool.not_eq_false] at hc
    refine .inr ⟨hc.1, hc.2, ?_⟩
    split at h
    · rename_i e he
      simp only [Host.Outcome.next.injEq] at h
      exact .inl ⟨e, he, h.symm⟩
    · rename_i i hi
      exact .inr ⟨i, hi, h⟩

/-- All one step can do: an engine turn, a host transaction, or an edge of the reset input (R17, R81, R320). -/
theorem step_cases (s t : State) (h : step s = .next t) :
    (s.pending = [] ∧ s.engineTurn = .next t) ∨
    (∃ rest, s.pending = .engine :: rest ∧ State.engineTurn { s with pending := rest } = .next t) ∨
    (∃ txn rest, s.pending = .bus txn :: rest ∧ s.resetLine = false ∧
      t = { (State.transact { s with pending := rest } txn).2 with
        answers := (State.transact { s with pending := rest } txn).1 :: s.answers }) ∨
    (∃ rest, s.pending = .reset true :: rest ∧ t = State.assertReset { s with pending := rest }) ∨
    (∃ rest, s.pending = .reset false :: rest ∧ t = State.releaseReset { s with pending := rest }) := by
  unfold step at h
  split at h
  · exact .inl ⟨by assumption, h⟩
  · exact .inr (.inl ⟨_, by assumption, h⟩)
  · rename_i txn rest hp
    unfold State.busTurn at h
    split at h
    · simp at h
    · rename_i hr
      simp only [Bool.not_eq_true] at hr
      simp only [Host.Outcome.next.injEq] at h
      exact .inr (.inr (.inl ⟨txn, rest, hp, hr, h.symm⟩))
  · rename_i asserted rest hp
    unfold State.resetTurn at h
    cases asserted with
    | true => exact .inr (.inr (.inr (.inl ⟨rest, hp, by simpa using h.symm⟩)))
    | false => exact .inr (.inr (.inr (.inr ⟨rest, hp, by simpa using h.symm⟩)))

/-- All a host transaction can do: nothing, a register write, or a cell write while IDLE (R70 to R79). -/
theorem transact_cases (s : State) (txn : Txn) :
    ((s.transact txn).2 = s) ∨
    (∃ addr size v offset, txn = .write addr size v ∧ target s.capacity addr size = .register offset ∧
      s.transact txn = (.done, s.writeRegister offset v)) ∨
    (∃ addr size v win k t, txn = .write addr size v ∧ target s.capacity addr size = .cell win k ∧
      s.phase = .idle ∧ s.writeCell win k v = some t ∧ s.transact txn = (.done, t)) := by
  cases txn with
  | read addr size =>
    refine .inl ?_
    simp only [State.transact]
    split
    · rfl
    · split <;> rfl
    · rfl
  | write addr size v =>
    cases hT : target s.capacity addr size with
    | register offset => exact .inr (.inl ⟨addr, size, v, offset, rfl, hT, by simp [State.transact, hT]⟩)
    | unmapped => exact .inl (by simp [State.transact, hT])
    | cell win k =>
      cases hb : s.busy with
      | true => exact .inl (by simp [State.transact, hT, hb])
      | false =>
        cases hw : s.writeCell win k v with
        | none => exact .inl (by simp [State.transact, hT, hb, hw])
        | some t =>
          refine .inr (.inr ⟨addr, size, v, win, k, t, rfl, hT, ?_, hw, by simp [State.transact, hT, hb, hw]⟩)
          simpa [State.busy] using hb

/-- All a register write can do (R20 to R34, R79, R130). -/
theorem writeRegister_cases (s : State) (offset : Nat) (v : Word) :
    (s.writeRegister offset v = s) ∨
    (s.writeRegister offset v = s.dropWrite) ∨
    (offset = 0x004 ∧ s.busy = false ∧ s.writeRegister offset v = { s with ctrl := v &&& 0x00000007#32 }) ∨
    (offset = 0x008 ∧ s.busy = false ∧
      s.writeRegister offset v = { s.clearAvail with plane := v &&& 0x00000013#32 }) ∨
    (offset = 0x00C ∧ s.busy = false ∧
      s.writeRegister offset v = { s.clearAvail with width := v &&& 0x0000FFFF#32 }) ∨
    (offset = 0x010 ∧ s.busy = false ∧
      s.writeRegister offset v = { s.clearAvail with height := v &&& 0x0000FFFF#32 }) ∨
    (offset = 0x014 ∧ s.busy = false ∧ s.writeRegister offset v = { s with geom := v }) ∨
    (offset = 0x018 ∧ s.busy = false ∧ s.status.err = false ∧ s.writeRegister offset v = s.accept v) ∨
    (offset = 0x01C ∧ s.writeRegister offset v = s.writeStatus v) := by
  have hcfg : ∀ a : State, s.configWrite a = s.dropWrite ∨ (s.busy = false ∧ s.configWrite a = a) := by
    intro a
    unfold State.configWrite
    cases s.busy <;> simp
  unfold State.writeRegister
  split
  · rcases hcfg { s with ctrl := v &&& 0x00000007#32 } with h | h
    · exact .inr (.inl h)
    · exact .inr (.inr (.inl ⟨rfl, h⟩))
  · rcases hcfg { s.clearAvail with plane := v &&& 0x00000013#32 } with h | h
    · exact .inr (.inl h)
    · exact .inr (.inr (.inr (.inl ⟨rfl, h⟩)))
  · rcases hcfg { s.clearAvail with width := v &&& 0x0000FFFF#32 } with h | h
    · exact .inr (.inl h)
    · exact .inr (.inr (.inr (.inr (.inl ⟨rfl, h⟩))))
  · rcases hcfg { s.clearAvail with height := v &&& 0x0000FFFF#32 } with h | h
    · exact .inr (.inl h)
    · exact .inr (.inr (.inr (.inr (.inr (.inl ⟨rfl, h⟩)))))
  · rcases hcfg { s with geom := v } with h | h
    · exact .inr (.inl h)
    · exact .inr (.inr (.inr (.inr (.inr (.inr (.inl ⟨rfl, h⟩))))))
  · unfold State.issue
    cases hb : s.busy <;> cases he : s.status.err <;> simp
  · exact .inr (.inr (.inr (.inr (.inr (.inr (.inr (.inr ⟨rfl, rfl⟩)))))))
  · exact .inl rfl

end Sys2Proof.Machine
end

