-- ==== Sys2Proof/Tests/Slice0.lean ====
section
/-! SUPPORT. The model's own tests, each expected value from the spec (its source is in the comment), and one witness for
the hypotheses of every statement that has some, clause by clause. -/

namespace Sys2Proof.Tests

open Sys2Proof Sys2Proof.Machine Sys2Proof.Safety

-- One theorem at a time: many evaluations at once each hold a thread's stack.
set_option Elab.async false

/-! ### Helpers -/

/-- The next state of an outcome, if it has one. -/
def outState (o : Host.Outcome State Fault Refusal) : Option State :=
  match o with
  | .next s => some s
  | .fault _ => none
  | .refused _ => none

/-- What `f` reads in the next state of a command step. -/
def see {α : Type} (i : Instr) (s : State) (f : State → α) : Option α := (outState (exec i s)).map f

/-- The first `k` cells of a buffer, holding `f`. -/
def filled (w k : Nat) (f : Nat → Nat) : Buffer w := (List.range k).map fun a => (a, BitVec.ofNat w (f a))

/-- A state in which the command word `cmd` has just been accepted, on a W×H plane of 8×8 blocks (KIND = 1) whose counts
GEOM records, with MAX_W = MAX_H = 32, ORIG holding `orig`, the other cells 0 and no block available. -/
def bench (w h cmd : Nat) (orig : Nat → Nat) : State :=
  let geom := BitVec.ofNat 32 (h / 8 * 65536 + w / 8)
  { State.reset with
    plane := 1#32
    width := BitVec.ofNat 32 w
    height := BitVec.ofNat 32 h
    geom := geom
    lastCmd := BitVec.ofNat 32 cmd
    phase := .start
    snap := ⟨false, 1#32, BitVec.ofNat 32 w, BitVec.ofNat 32 h, geom⟩
    capacity := ⟨32, 32⟩
    mem :=
      { orig := filled 16 (w * h) orig
        recon := filled 16 (w * h) fun _ => 0
        res := filled 32 (w * h) fun _ => 0
        coef := filled 32 (w * h) fun _ => 0
        mode := filled 8 (w / 8 * (h / 8)) fun b => if b = 0 then 0 else if b < w / 8 then 3 else 2
        avail := [] } }

/-- The one-block plane. -/
def one (cmd : Nat) : State := bench 8 8 cmd fun k => 3 * k

/-- The plane of 2×2 blocks. -/
def four (cmd : Nat) : State := bench 16 16 cmd fun _ => 7

/-- The plane of one row of two blocks. -/
def two (cmd : Nat) : State := bench 16 8 cmd fun _ => 7

/-- The same with some blocks available. -/
def withAvail (l : List Nat) (s : State) : State := { s with mem := { s.mem with avail := l } }

/-- A buffer cell changed. -/
def withCoef (k : Nat) (v : Int) (s : State) : State :=
  { s with mem := { s.mem with coef := cellPut s.mem.coef k (BitVec.ofInt 32 v) } }

/-- A RES cell changed. -/
def withRes (k : Nat) (v : Int) (s : State) : State :=
  { s with mem := { s.mem with res := cellPut s.mem.res k (BitVec.ofInt 32 v) } }

/-- An ORIG cell changed. -/
def withOrig (k v : Nat) (s : State) : State :=
  { s with mem := { s.mem with orig := cellPut s.mem.orig k (BitVec.ofNat 16 v) } }

/-- The two-block plane under DECP, every MODE cell holding `m`. -/
def badMode (m : Nat) : State := { two 5 with mem := { (two 5).mem with mode := filled 8 2 fun _ => m } }

/-- RECON filled with `f`. -/
def withRecon (k : Nat) (f : Nat → Nat) (s : State) : State := { s with mem := { s.mem with recon := filled 16 k f } }

/-- The stage of a sweep changed. -/
def withPhase (p : Phase) (s : State) : State := { s with phase := p }

theorem filled_rising (w k : Nat) (f : Nat → Nat) : ((filled w k f).map Prod.fst).Pairwise (· < ·) := by
  have h : (filled w k f).map Prod.fst = List.range k := by simp [filled, Function.comp_def]
  rw [h]
  exact List.pairwise_lt_range

/-- A bench's memory is canonical, with any rising list of available blocks. -/
theorem bench_wf (w h cmd : Nat) (orig : Nat → Nat) (l : List Nat) (hl : l.Pairwise (· < ·)) :
    (withAvail l (bench w h cmd orig)).mem.wf :=
  ⟨filled_rising _ _ _, filled_rising _ _ _, filled_rising _ _ _, filled_rising _ _ _, filled_rising _ _ _, hl⟩

/-- ENCB whose checks pass. -/
theorem encb_passes (s : State) (br bc : Nat)
    (h : firstFailure (s.configChecks ++ s.rangeChecks br bc ++ s.causalChecks br bc ++ s.sampleChecks br bc) = none) :
    exec (.encb br bc) s = .next (s.encodeBlock br bc).complete := s.checked_pass _ _ h

/-- ENCB with a failing check. -/
theorem encb_fails (s : State) (br bc : Nat) (f : Failure)
    (h : firstFailure (s.configChecks ++ s.rangeChecks br bc ++ s.causalChecks br bc ++ s.sampleChecks br bc) = some f) :
    exec (.encb br bc) s = .next (s.raise f) := s.checked_fail _ _ _ h

/-- The engine's turn while a command runs. -/
theorem step_runs (s : State) (i : Instr) (hp : s.pending = []) (hr : s.resetLine = false) (hb : s.busy = true)
    (hd : decode s.lastCmd = .ok i) : step s = exec i s := by
  simp [step, hp, State.engineTurn, hr, hb, hd]

/-! ### Well-formedness: an ill-formed term for each check (R109) -/

theorem test_wf_encb_br : Instr.wellFormed (.encb 4096 0) = false := by decide
theorem test_wf_encb_bc : Instr.wellFormed (.encb 0 4096) = false := by decide
theorem test_wf_decb_br : Instr.wellFormed (.decb 4096 0) = false := by decide
theorem test_wf_decb_bc : Instr.wellFormed (.decb 0 4096) = false := by decide
theorem test_wf_fdctb_br : Instr.wellFormed (.fdctb 4096 0) = false := by decide
theorem test_wf_fdctb_bc : Instr.wellFormed (.fdctb 0 4096) = false := by decide
theorem test_wf_idctb_br : Instr.wellFormed (.idctb 4096 0) = false := by decide
theorem test_wf_idctb_bc : Instr.wellFormed (.idctb 0 4096) = false := by decide

/-! ### Decoding: every constructor's word, BR, BC, RSV and OPC written out from R100 and R102 (vector T-C14) -/

theorem test_decode_nop : decode 0b000000000000_000000000000_0000_0000#32 = .ok .nop := by decide
theorem test_decode_clrav : decode 0b000000000000_000000000000_0000_0001#32 = .ok .clrav := by decide
theorem test_decode_encb : decode 0b000000000001_000000000010_0000_0010#32 = .ok (.encb 1 2) := by decide
theorem test_decode_decb : decode 0b000000000011_000000000100_0000_0011#32 = .ok (.decb 3 4) := by decide
theorem test_decode_encp : decode 0b000000000000_000000000000_0000_0100#32 = .ok .encp := by decide
theorem test_decode_decp : decode 0b000000000000_000000000000_0000_0101#32 = .ok .decp := by decide
theorem test_decode_fdctb : decode 0b000000000000_000000000001_0000_0110#32 = .ok (.fdctb 0 1) := by decide
theorem test_decode_idctb : decode 0b111111111111_111111111111_0000_0111#32 = .ok (.idctb 4095 4095) := by decide

/-- The illegal words of vector T-X1, one for each reason of R103. -/
theorem test_decode_opcode : decode 0x00000008#32 = .error .reservedOpcode := by decide
theorem test_decode_reserved : decode 0x00000012#32 = .error .reservedBits := by decide
theorem test_decode_operands : decode 0x00100004#32 = .error .strayOperands := by decide

/-- R109's formula `(br << 20) | (bc << 8) | 0x7`. -/
theorem test_encode_idctb : encode (.idctb 1 2) = 0x00100207#32 := by decide

/-- The opcode table's numbering of the bits. -/
theorem test_table_word : decodeTableWord 32 0x00300403 = some (.decb 3 4) := by decide

/-! ### Arithmetic (R205; vector T-T13; R243) -/

theorem test_rnd_half : rnd (2 ^ 23) 24 = 1 ∧ rnd (-2 ^ 23) 24 = 0 ∧ rnd (-2 ^ 23 - 1) 24 = -1 := by decide
theorem test_rnd_negative : rnd (-5) 1 = -2 ∧ rnd (-7) 2 = -2 := by decide
theorem test_clip : clip (255 + 3) 0 255 = 255 ∧ clip (-7) 0 255 = 0 ∧ clip 1100 0 1023 = 1023 := by decide

/-! ### One step of each command -/

/-- R142's example: NOP gives STATUS = 2. -/
theorem test_nop : see .nop (one 0) (fun t => (t.statusWord, t.nblk)) = some (2#32, 0#32) := by decide

/-- R143: the map is empty, RECON is kept. -/
theorem test_clrav : see .clrav (withAvail [0, 3] (four 1)) (fun t => (t.availBit 3, t.reconCell 5)) =
    some (false, 0#16) := by decide +kernel

/-- Vector T-P1's COEF, row 0 and the start of row 1. -/
theorem test_encb_coefficients :
    see (.encb 0 0) (bench 8 8 2 fun k => 3 * (k % 8) + 5 * (k / 8) + (k % 8) * (k / 8) % 7)
      (fun t => (List.range 9).map fun k => (t.coefCell k).toInt) =
    some [61373, -13994, -1756, -1463, -1344, -437, -727, -110, -23323] := by decide +kernel

/-- R171's example: HORIZONTAL, MET_H = 0, MODE[1] = 3. -/
theorem test_encb_horizontal :
    see (.encb 0 1) (withRecon 128 (fun _ => 50) (withAvail [0] (bench 16 8 0x102 fun _ => 50)))
      (fun t => (t.modesel, t.metD, t.metV, t.metH, t.modeCell 1, t.reconCell 8)) =
    some (0x43#32, 0xFFFFFFFF#32, 0xFFFFFFFF#32, 0#32, 3#8, 50#16) := by decide +kernel

/-- R244's example and vector T-R2: 204 792 gives 100, 614 375 is clipped to 255. -/
theorem test_decb : see (.decb 0 0) (withCoef 0 204792 (one 3)) (fun t => (t.reconCell 63, t.resCell 0, t.modesel)) =
    some (100#16, 100#32, 0#32) := by decide +kernel
theorem test_decb_clips : see (.decb 0 0) (withCoef 0 614375 (one 3)) (fun t => (t.reconCell 63, t.resCell 0)) =
    some (255#16, 300#32) := by decide +kernel

/-- R213: the impulse; vector T-T14: |RES| = 1024 fails with RES_RANGE. -/
theorem test_fdctb : see (.fdctb 0 0) (withRes 0 1 (one 6))
      (fun t => [t.coefCell 0, t.coefCell 1, t.coefCell 2, t.coefCell 3, t.coefCell 8]) =
    some [32#32, 44#32, 42#32, 38#32, 44#32] := by decide +kernel
theorem test_fdctb_range : see (.fdctb 0 0) (withRes 63 (-1024) (one 6)) (fun t => (t.statusWord, t.errpos)) =
    some (0xA04#32, 0#32) := by decide +kernel

/-- R212 (b): C(0, 0) = 2^22 gives 2048; vector T-T15: 2^22 + 1 fails with COEF_RANGE. -/
theorem test_idctb : see (.idctb 0 0) (withCoef 0 4194304 (one 7)) (fun t => (t.resCell 0, t.resCell 63)) =
    some (2048#32, 2048#32) := by decide +kernel
theorem test_idctb_range : see (.idctb 0 0) (withCoef 0 4194305 (one 7)) (fun t => t.statusWord) =
    some 0xB04#32 := by decide +kernel

/-- R245 (b), vector T-P13: a sample above SMAX in block (0, 1) is SAMPLE_RANGE there. -/
theorem test_encp_range :
    see .encp (withPhase (.validate 0 1) (withOrig 127 300 (bench 16 8 4 fun _ => 1)))
      (fun t => (t.statusWord, t.errpos)) = some (0x904#32, 1#32) := by decide +kernel
theorem test_encp_last : see .encp (withPhase (.process 0 0) (one 4)) (fun t => (t.phase, t.statusWord, t.nblk)) =
    some (.idle, 2#32, 1#32) := by decide +kernel

/-- R286's kind of example: GEOM that does not match is GEOMETRY; R246's order: BAD_MODE at the block. -/
theorem test_decp_geometry : see .decp { one 5 with snap := { (one 5).snap with geom := 0x00010002#32 } }
    (fun t => t.statusWord) = some 0x404#32 := by decide +kernel
theorem test_decp_mode :
    see .decp (withPhase (.validate 0 1) (badMode 2)) (fun t => (t.statusWord, t.errpos)) = some (0x804#32, 1#32) := by decide +kernel

/-- Vector T-X1: an illegal word is BAD_CMD when it runs as the first command after reset. -/
theorem test_bad_command : (outState (step (State.reset.withFetchWord 32 0x00100004))).map State.statusWord =
    some 0x104#32 := by decide

/-- R322: the first geometry command after reset is SHAPE. -/
theorem test_reset_shape : (outState (step (State.reset.withFetchWord 32 0x00300402))).map State.statusWord =
    some 0x304#32 := by decide

/-- R20 and R21: ID over the bus, and R72: a byte access is a bus error. -/
theorem test_bus_id : (State.reset.transact (.read 0#32 .word)).1 = .data 0x49504501#32 := by decide
theorem test_bus_byte : (State.reset.transact (.read 0#32 .byte)).1 = .busError := by decide

/-! ### Witnesses: hypotheses of the statements that something meets -/

theorem witness_DecodeOfEncode : Instr.wellFormed (.encb 4095 0) = true ∧ Instr.wellFormed (.idctb 0 4095) = true := by
  decide

theorem witness_EncodeOfDecode :
    decode 0xFFFFFF07#32 = .ok (.idctb 4095 4095) ∧ Instr.wellFormed (.idctb 4095 4095) = true ∧
      encode (.idctb 4095 4095) = 0xFFFFFF07#32 := by decide

theorem witness_StepRuns :
    ((one 2).resetLine = false ∧ (one 2).phase ≠ .idle ∧ decode (one 2).lastCmd = .ok (.encb 0 0) ∧
      (one 2).pending = []) ∧
    ((one 2).withScript [.engine]).pending = .engine :: [] := by decide

/-- IDLE, and a running command under an asserted reset input, with an empty script and with the engine's turn. -/
theorem witness_StepRuns_rest :
    (State.reset.phase = .idle ∧ State.reset.pending = []) ∧
    ({ one 2 with resetLine := true, pending := [.engine] } : State).resetLine = true := by decide

theorem witness_FetchedWord : Instr.wellFormed (.decb 1 4095) = true := by decide

/-- The write to CMD of a NOP, while BUSY, while ERR, and while neither. -/
theorem witness_CommandIssue :
    (((one 2).withScript [hostCmd .nop]).resetLine = false ∧ ((one 2).withScript [hostCmd .nop]).busy = true ∧
      ((one 2).withScript [hostCmd .nop]).pending = [.bus (.write 0x018#32 .word 0#32)]) ∧
    (((one 2).raise ⟨.shape, 0, 0⟩).status.err = true ∧ ((one 2).raise ⟨.shape, 0, 0⟩).busy = false) ∧
    (State.reset.busy = false ∧ State.reset.status.err = false ∧ State.reset.resetLine = false) := by decide

/-- One illegal word for each way R103 names. -/
theorem witness_IllegalWord :
    (one 8).busy = true ∧ (one 8).resetLine = false ∧ 8 ≤ (one 8).lastCmd.toNat % 16 ∧
    (one 0xF0).lastCmd.toNat / 16 % 16 ≠ 0 ∧
    ((one 0x100).lastCmd.toNat % 16 = 0 ∧ (one 0x100).lastCmd.toNat / 256 ≠ 0) ∧
    ((one 0x80000005).lastCmd.toNat % 16 = 5 ∧ (one 0x80000005).lastCmd.toNat / 256 ≠ 0) := by decide

/-- A sweep in each of its stages, on the first and on the last block. -/
theorem witness_sweepSound :
    (sweepSound (two 4) = true ∧ (two 4).busy = true ∧ (two 4).resetLine = false ∧ (two 4).pending = []) ∧
    sweepSound (withPhase (.validate 0 0) (two 4)) = true ∧ sweepSound (withPhase (.validate 0 1) (one 5)) = false ∧
    sweepSound (withPhase (.validate 0 1) (two 4)) = true ∧ sweepSound (withPhase .clear (one 5)) = true ∧
    sweepSound (withPhase (.process 0 1) (withAvail [0] (two 4))) = true := by decide +kernel

/-- The first block, and the last one with its three neighbours available. -/
theorem witness_EncbEncodes :
    (ConfigLegal (one 2).snap (one 2).capacity ∧ InGrid (one 2).snap 0 0 ∧ CausallyReady (one 2) 0 0 ∧
      SamplesInRange (one 2) 0 0) ∧
    (ConfigLegal (four 2).snap (four 2).capacity ∧ InGrid (four 2).snap 1 1 ∧
      CausallyReady (withAvail [0, 1, 2] (four 2)) 1 1 ∧ SamplesInRange (four 2) 1 1) := by decide +kernel

/-- The same for a decode, with coefficients at ±2^22. -/
theorem witness_DecbDecodes :
    (GeometryRecorded (one 3).snap ∧ CausallyReady (one 3) 0 0 ∧ StoredModeAllowed (one 3) 0 0 ∧
      CoefficientsInRange (withCoef 0 4194304 (withCoef 1 (-4194304) (one 3))) 0 0) ∧
    (GeometryRecorded (four 3).snap ∧ CausallyReady (withAvail [0, 1, 2] (four 3)) 1 1 ∧
      StoredModeAllowed (four 3) 1 1 ∧ CoefficientsInRange (four 3) 1 1) := by decide +kernel

theorem witness_FdctbTransforms :
    ConfigLegal (one 6).snap (one 6).capacity ∧ InGrid (one 6).snap 0 0 ∧
      ResidualsInRange (withRes 0 1023 (withRes 1 (-1023) (one 6))) 0 0 := by decide +kernel

theorem witness_IdctbTransforms :
    ConfigLegal (four 7).snap (four 7).capacity ∧ InGrid (four 7).snap 1 1 ∧
      CoefficientsInRange (withCoef 255 (-4194304) (four 7)) 1 1 := by decide +kernel

/-- Each clause: the start, a block validated, the clearing, a block encoded. -/
theorem witness_EncpStages :
    ((two 4).phase = .start ∧ ConfigLegal (two 4).snap (two 4).capacity) ∧
    SamplesInRange (withPhase (.validate 0 0) (two 4)) 0 0 ∧ SamplesInRange (withPhase (.validate 0 1) (two 4)) 0 1 ∧
    (withPhase .clear (two 4)).phase = .clear ∧
    (CausallyReady (withPhase (.process 0 1) (withAvail [0] (two 4))) 0 1 ∧
      SamplesInRange (withPhase (.process 0 1) (withAvail [0] (two 4))) 0 1) := by decide +kernel

theorem witness_DecpStages :
    ((two 5).phase = .start ∧ ConfigLegal (two 5).snap (two 5).capacity ∧ GeometryRecorded (two 5).snap) ∧
    (StoredModeAllowed (withPhase (.validate 0 1) (two 5)) 0 1 ∧
      CoefficientsInRange (withPhase (.validate 0 1) (two 5)) 0 1) ∧
    (withPhase .clear (two 5)).phase = .clear ∧
    (CausallyReady (withPhase (.process 0 1) (withAvail [0] (two 5))) 0 1 ∧
      StoredModeAllowed (withPhase (.process 0 1) (withAvail [0] (two 5))) 0 1 ∧
      CoefficientsInRange (withPhase (.process 0 1) (withAvail [0] (two 5))) 0 1) := by decide +kernel

theorem witness_EncpSweep :
    decode (two 4).lastCmd = .ok .encp ∧ (two 4).phase = .start ∧ (two 4).resetLine = false ∧
      (two 4).pending = [] ∧ (two 4).nblk = 0#32 ∧ ConfigLegal (two 4).snap (two 4).capacity ∧
      (∀ br < (two 4).snap.brows, ∀ bc < (two 4).snap.bcols, SamplesInRange (two 4) br bc) := by decide +kernel

theorem witness_DecpSweep :
    decode (two 5).lastCmd = .ok .decp ∧ (two 5).phase = .start ∧ (two 5).resetLine = false ∧
      (two 5).pending = [] ∧ (two 5).nblk = 0#32 ∧ ConfigLegal (two 5).snap (two 5).capacity ∧
      GeometryRecorded (two 5).snap ∧
      (∀ br < (two 5).snap.brows, ∀ bc < (two 5).snap.bcols, CoefficientsInRange (two 5) br bc) ∧
      (∀ br < (two 5).snap.brows, ∀ bc < (two 5).snap.bcols, StoredModeAllowed (two 5) br bc) := by
  refine ⟨by decide, by decide, by decide, by decide, by decide, by decide, by decide, by decide +kernel, by decide +kernel⟩

theorem witness_SweepsCheckConfiguration : (four 4).phase = .start := by decide

/-- The last block's last sample is 256. -/
theorem witness_OneBadBlockEncode :
    decode (two 4).lastCmd = .ok .encp ∧ InGrid (two 4).snap 0 1 ∧
      (∀ br < (two 4).snap.brows, ∀ bc < (two 4).snap.bcols,
        (two 4).snap.blockIndex br bc < (two 4).snap.blockIndex 0 1 → SamplesInRange (withOrig 127 256 (two 4)) br bc) ∧
      ¬SamplesInRange (withOrig 127 256 (two 4)) 0 1 := by decide +kernel

/-- A mode the first row does not allow: NONE at (0, 1), after a block that passes. -/
theorem witness_OneBadBlockDecode_mode :
    InGrid (two 5).snap 0 1 ∧
      (StoredModeAllowed (badMode 0) 0 0 ∧ CoefficientsInRange (badMode 0) 0 0) ∧ ¬StoredModeAllowed (badMode 0) 0 1 := by
  decide +kernel

/-- A coefficient of 2^22 + 1 in the first block, whose mode is allowed. -/
theorem witness_OneBadBlockDecode_coefficient :
    decode (two 5).lastCmd = .ok .decp ∧ InGrid (two 5).snap 0 0 ∧ (two 5).snap.blockIndex 0 0 = 0 ∧
      StoredModeAllowed (withCoef 0 4194305 (two 5)) 0 0 ∧ ¬CoefficientsInRange (withCoef 0 4194305 (two 5)) 0 0 := by
  decide +kernel

/-- A block outside the grid. -/
theorem witness_AFailingStep :
    exec (.encb 0 1) (one 0x102) = .next ((one 0x102).raise ⟨.blockRange, 0, 1⟩) ∧ (one 0x102).status.err = false ∧
      ((one 0x102).raise ⟨.blockRange, 0, 1⟩).status.err = true :=
  ⟨encb_fails _ _ _ _ (by decide +kernel), by decide, by decide⟩

theorem witness_BusErrors :
    (State.reset.transact (.write 0x20000000#32 .word 1#32)).1 = .busError ∧
      ((one 0).transact (.read 0x10000000#32 .word)).1 = .busError ∧
      (State.reset.withScript [hostRd 0#32]).resetLine = false ∧
      (State.reset.withScript [hostRd 0#32]).pending = .bus (.read 0#32 .word) :: [] := by decide +kernel

theorem witness_RegisterWrites :
    State.reset.busy = false ∧ (one 0).busy = true ∧ (0x018 : Nat) = 0x018 ∧ 0x020 ≤ (0xFFC : Nat) := by decide

theorem witness_RegistersRead : 0x038 ≤ (0x038 : Nat) ∧ 0x038 ≤ (0xFFC : Nat) ∧
    (0x000#32).toNat < 0x1000 ∧ (0x000#32).toNat % 4 = 0 ∧ (0xFFC#32).toNat < 0x1000 ∧ (0xFFC#32).toNat % 4 = 0 := by
  decide

theorem witness_CellWrites : Window.orig ≠ .recon ∧ Window.orig ≠ .avail ∧ Window.mode ≠ .recon ∧
    Window.mode ≠ .avail ∧ (1, Window.orig) ≠ (0, Window.orig) := by decide

/-- The first and the last cell of a plane window and of a block window, with MAX_W = MAX_H = 32. -/
theorem witness_CellWrites_bus :
    (withPhase .idle (one 0)).capacity.Legal ∧ (withPhase .idle (one 0)).busy = false ∧
      (0 < 32 * 32 ∧ 1023 < 32 * 32) ∧ 0 < 32 / 8 * (32 / 8) ∧ 15 < 32 / 8 * (32 / 8) := by decide

/-- R73: the last RECON cell and the AVAIL cell of the only block, over the bus. -/
theorem test_bus_windows :
    ((withPhase .idle (withAvail [0] (withRecon 64 (fun _ => 9) (one 0)))).transact (.read 0x200000FC#32 .word)).1 =
      .data 9#32 ∧
    ((withPhase .idle (withAvail [0] (one 0))).transact (.read 0x60000000#32 .word)).1 = .data 1#32 := by decide +kernel

theorem witness_Bytes :
    (State.reset.transact (.read 0#32 .word)).1 = .data 0x49504501#32 ∧
      ((withPhase .idle (one 0)).transact (.read 0x100000FC#32 .word)).1 = .data 189#32 := by decide +kernel

/-- The last element of the last block of the largest square plane of MAX_W = MAX_H = 32. -/
theorem witness_EngineIndices :
    Capacity.Legal ⟨32, 32⟩ ∧ ConfigLegal (bench 32 32 4 fun _ => 0).snap ⟨32, 32⟩ ∧
      InGrid (bench 32 32 4 fun _ => 0).snap 3 3 ∧ 7 < (bench 32 32 4 fun _ => 0).snap.n := by decide

theorem witness_EverySample :
    ConfigLegal (four 4).snap (four 4).capacity ∧ 15 < (four 4).snap.w ∧ 0 < (four 4).snap.h := by decide

/-- A step of a command, and a PLANE word of each KIND and each DEPTH. -/
theorem witness_EverySample_planes :
    (∃ t, exec .nop (one 0) = .next t) ∧ (0x10#32).toNat % 4 = 0 ∧ (0x01#32).toNat % 4 = 1 ∧ (0x12#32).toNat % 4 = 2 ∧
      (0x02#32).toNat / 16 % 2 = 0 ∧ (0x13#32).toNat / 16 % 2 = 1 := ⟨⟨_, rfl⟩, by decide⟩

theorem witness_Irq : State.reset.status.err = false := by decide

/-- An assertion, a release, and a transaction while the input is asserted. -/
theorem witness_Reset :
    ((one 2).withScript [.reset true]).pending = .reset true :: [] ∧
    ((one 2).withScript [.reset false]).pending = .reset false :: [] ∧
    ((State.reset.assertReset.withScript [hostRd 0#32]).resetLine = true ∧
      (State.reset.assertReset.withScript [hostRd 0#32]).pending = .bus (.read 0#32 .word) :: []) := by decide

theorem witness_Reinit :
    (State.reset.withScript hostReinit).busy = false ∧ (State.reset.withScript hostReinit).resetLine = false ∧
      (State.reset.withScript hostReinit).pending = hostReinit := by decide

theorem witness_Predictions : 0 < (one 2).snap.n ∧ 7 < (one 2).snap.n ∧ 0 < (1 : Nat) ∧
    PredMode.diagonal ∈ candidates 1 1 ∧ PredMode.vertical ∈ candidates 1 0 ∧ PredMode.horizontal ∈ candidates 0 1 := by
  decide

/-- The extreme residuals ±1023 on a 16×16 block. -/
theorem witness_Metric :
    ∀ i < 16, ∀ j < 16, |blockAt (blockOf 16 fun a b => if a = b then -1023 else 1023) i j| ≤ 1023 := by decide +kernel

/-- A candidate's metric under METRIC = 0 and METRIC = 1: a single residual of 3 is 3 and 9 (R168). -/
theorem witness_Metric_candidate :
    (one 2).snap.metric = false ∧ ({ (one 2).snap with metric := true } : Snapshot).metric = true := by decide
theorem test_metric : energy false 8 (blockOf 8 fun i j => if i = 1 ∧ j = 2 then -3 else 0) = 3 ∧
    energy true 8 (blockOf 8 fun i j => if i = 1 ∧ j = 2 then -3 else 0) = 9 := by decide +kernel

theorem witness_Selection : [PredMode.diagonal, .vertical] ≠ [] ∧ 0 < (1 : Nat) := by decide

/-- A second row of blocks below a first one that holds 0, a last row of 7, or 7 everywhere. -/
def below (recon : Nat → Nat) : State := withRecon 256 recon (four 0x100102)

/-- Content equal to the VERTICAL prediction: in the first column; with DIAGONAL's metric positive; and with it 0. -/
theorem witness_VerticalContent_column :
    ∀ i < 8, ∀ j < 8, (((below fun _ => 7).origCell ((below fun _ => 7).snap.cellIndex 1 0 i j)).toNat : Int) =
      (below fun _ => 7).reconSample (0 * 8 + j) (1 * 8 - 1) := by decide +kernel
theorem witness_VerticalContent_vertical :
    (∀ i < 8, ∀ j < 8,
      (((below fun k => if k / 16 = 7 ∧ 8 ≤ k % 16 then 7 else 0).origCell ((below fun _ => 7).snap.cellIndex 1 1 i j)).toNat : Int) =
        (below fun k => if k / 16 = 7 ∧ 8 ≤ k % 16 then 7 else 0).reconSample (1 * 8 + j) (1 * 8 - 1)) ∧
      0 < (below fun k => if k / 16 = 7 ∧ 8 ≤ k % 16 then 7 else 0).candidateEnergy 1 1 .diagonal := by decide +kernel
theorem witness_VerticalContent_diagonal :
    (∀ i < 8, ∀ j < 8, (((below fun _ => 7).origCell ((below fun _ => 7).snap.cellIndex 1 1 i j)).toNat : Int) =
      (below fun _ => 7).reconSample (1 * 8 + j) (1 * 8 - 1)) ∧
      (below fun _ => 7).candidateEnergy 1 1 .diagonal = 0 := by decide +kernel

/-- An interior block selects the earliest of DIAGONAL, VERTICAL, HORIZONTAL with the smallest metric (R169): all three 0,
VERTICAL alone 0, HORIZONTAL alone 0. -/
theorem test_selects_diagonal : (below fun _ => 7).selectedMode 1 1 = .diagonal := by decide +kernel
theorem test_selects_vertical :
    (below fun k => if k / 16 = 7 ∧ 8 ≤ k % 16 then 7 else 0).selectedMode 1 1 = .vertical := by decide +kernel
theorem test_selects_horizontal :
    (below fun k => if 8 ≤ k / 16 ∧ k % 16 = 7 then 7 else 0).selectedMode 1 1 = .horizontal := by decide +kernel

/-- The last block, whose three neighbours are available and in range. -/
theorem witness_Predictions_range :
    (withAvail [0, 1, 2] (below fun _ => 255)).snap = (withAvail [0, 1, 2] (below fun _ => 255)).liveConfig ∧
      ReconInRange (withAvail [0, 1, 2] (below fun _ => 255)) ∧
      InGrid (withAvail [0, 1, 2] (below fun _ => 255)).snap 1 1 ∧
      CausallyReady (withAvail [0, 1, 2] (below fun _ => 255)) 1 1 := by decide +kernel

/-- R282: the codes of causes 2, 5, 6 and 7. -/
theorem test_cause_codes : [Cause.cfg.code, Cause.blockRange.code, Cause.causality.code, Cause.rewrite.code] =
    [2#4, 5#4, 6#4, 7#4] := by decide

/-- R202 and R204: one row of M_16 by the coefficients of vector T-T6, whose left half is 1023 and right half −1023. -/
theorem test_fdct_halves :
    [1, 3, 5, 7].map (blockAt (fdct 16 (blockOf 16 fun _ j => if j < 8 then 1023 else -1023)) 0) =
      [3778578, -1275873, 785664, -583813] := by decide +kernel

theorem witness_Transform_sums : 1 ≤ (24 : Nat) ∧ 0 < (8 : Nat) ∧ 15 < (16 : Nat) := by decide

theorem witness_Transform :
    (∀ i < 8, ∀ j < 8, |blockAt (blockOf 8 fun _ _ => -1023) i j| ≤ 1023) ∧
    (∀ k < 16, ∀ l < 16, |blockAt (blockOf 16 fun _ _ => 4194304) k l| ≤ 4194304) ∧
    (∀ k < 8, ∀ l < 8, |blockAt (blockOf 8 fun _ _ => -4194304) k l| ≤ 4194304) := by decide +kernel

/-- The last block, whose neighbours hold SMAX. -/
theorem witness_EncbReconstructs :
    ConfigLegal (four 0x100102).snap (four 0x100102).capacity ∧ InGrid (four 0x100102).snap 1 1 ∧
      CausallyReady (withAvail [0, 1, 2] (below fun _ => 255)) 1 1 ∧ SamplesInRange (below fun _ => 255) 1 1 ∧
      NeighboursInRange (below fun _ => 255) 1 1 := by decide +kernel

/-- The encoder's own next state. -/
def encoded : State := ((one 2).encodeBlock 0 0).complete

/-- The encoder's own next state with AVAIL cleared, for the decoder. -/
theorem witness_DecoderRebuilds :
    exec (.encb 0 0) (one 2) = .next encoded ∧ encoded.clearAvail.snap = (one 2).snap ∧
      encoded.clearAvail.modeCell 0 = encoded.modeCell 0 ∧
      (∀ k, encoded.clearAvail.coefCell k = encoded.coefCell k) ∧
      ConfigLegal (one 2).snap (one 2).capacity ∧ GeometryRecorded (one 2).snap :=
  ⟨encb_passes _ _ _ (by decide +kernel), rfl, rfl, fun _ => rfl, by decide, by decide⟩
theorem witness_DecoderRebuilds_checks :
    encoded.clearAvail.neighbours 0 0 = (one 2).neighbours 0 0 ∧ CausallyReady encoded.clearAvail 0 0 ∧
      CoefficientsInRange encoded.clearAvail 0 0 := by decide +kernel

theorem witness_EncodeThenDecode : SnapshotCurrent (two 4) ∧ (two 4).status.err = false := by decide +kernel

/-- Two states with different registers that agree on the block. -/
theorem witness_EncoderReads :
    ({ one 2 with errpos := 5#32 } : State).origBlock 0 0 = (one 2).origBlock 0 0 ∧
      ({ one 2 with errpos := 5#32 } : State).neighbours 0 0 = (one 2).neighbours 0 0 := ⟨rfl, rfl⟩

/-- Blocks (0, 1) and (1, 0), of one anti-diagonal. -/
theorem witness_Commute :
    (four 4).mem.wf ∧ InGrid (four 4).snap 0 1 ∧ InGrid (four 4).snap 1 0 ∧ Independent 0 1 1 0 :=
  ⟨bench_wf 16 16 4 _ [] (by decide), by decide, by decide, by decide⟩

/-- The middle of an ENCP: the last block is next. -/
def middle : State := withPhase (.process 0 1) (withAvail [0] (two 4))

/-- Every invariant holds in the middle of a sweep, and the step there has a next state. -/
theorem witness_Invariants : middle.mem.wf ∧ ReservedBitsZero middle ∧ StatusSound middle ∧ SnapshotCurrent middle :=
  ⟨bench_wf 16 8 4 _ [0] (by decide), by decide, by decide, by decide⟩
theorem witness_Invariants_sweep : sweepSound middle = true := by decide +kernel
theorem witness_Invariants_recon : ReconInRange middle := by decide +kernel
theorem witness_Invariants_step : ∃ t, step middle = .next t := by
  rw [step_runs middle .encp (by decide) (by decide) (by decide) (by decide)]
  exact exec_next .encp middle

/-- A step that sets a bit: ENCB of the first block. -/
theorem witness_SetAvail :
    step (one 2) = .next encoded ∧ (one 2).availBit 0 = false ∧ encoded.availBit 0 = true := by
  refine ⟨?_, by decide, by decide⟩
  rw [step_runs (one 2) (.encb 0 0) (by decide) (by decide) (by decide) (by decide)]
  exact encb_passes _ _ _ (by decide +kernel)

/-- The same in PROCESS of an ENCP: the step at block (0, 1) sets bit 1. -/
def middleDone : State := (middle.encodeBlock 0 1).afterProcess 0 1
theorem witness_SetAvail_sweep :
    step middle = .next middleDone ∧ middle.availBit 1 = false ∧ middleDone.availBit 1 = true := by
  refine ⟨?_, by decide, by decide +kernel⟩
  rw [step_runs middle .encp (by decide) (by decide) (by decide) (by decide)]
  exact middle.checked_pass _ (middle.causalChecks 0 1 ++ middle.sampleChecks 0 1) (by decide +kernel)

/-- A state with a bit set under CLRAV. -/
def marked : State := withAvail [2] (one 1)

/-- A step that clears bits, in each of the four ways. -/
theorem witness_ClearAvail :
    marked.availBit 2 = true ∧
    step (marked.withScript [.reset true]) = .next (State.assertReset { marked with pending := [] }) ∧
    step ((withPhase .idle marked).withScript [hostWr 0x008#32 1#32]) =
      .next { (withPhase .idle marked).clearAvail with answers := [.done] } ∧
    step marked = .next marked.clearAvail.complete ∧
    step (withPhase .clear (withAvail [2] (one 4))) = .next (withPhase (.process 0 0) (one 4)) :=
  ⟨by decide, rfl, rfl, rfl, rfl⟩

/-- An engine turn and a transaction. -/
theorem witness_EachBuffer :
    (∃ t, step (one 2) = .next t) ∧ (∃ t, step (State.reset.withScript [hostRd 0#32]) = .next t) :=
  ⟨⟨_, witness_SetAvail.1⟩, _, rfl⟩

end Sys2Proof.Tests
end

section
/-! SUPPORT. The geometry of a command (rules R13, R23 to R26, R133) and the partition of a legal plane into blocks
(R135), for the statements of 00_scope.md. -/

namespace Sys2Proof.Machine

open Sys2Proof.Safety

/-! ### The snapshot during a command (R49) -/

@[simp] theorem State.afterProcess_snap (s : State) (br bc : Nat) : (s.afterProcess br bc).snap = s.snap := by
  rcases s.afterProcess_cases br bc with ⟨-, h⟩ | ⟨br', bc', -, h⟩ <;> rw [h]
  exact s.complete_snap

/-- "The snapshot equals the live registers throughout the command": no command step takes it anew (R49). -/
theorem exec_snap (i : Instr) (s t : State) (h : exec i s = .next t) : t.snap = s.snap := by
  rcases exec_cases i s t h with ⟨f, rfl⟩ | ⟨-, rfl⟩ | ⟨-, rfl⟩ | ⟨br, bc, -, -, -, -, -, rfl⟩ |
    ⟨br, bc, -, -, -, -, -, -, -, rfl⟩ | ⟨br, bc, -, -, -, -, rfl⟩ | ⟨br, bc, -, -, -, -, rfl⟩ | ⟨-, -, -, rfl⟩ |
    ⟨br, bc, -, -, rfl⟩ | ⟨-, -, rfl⟩ | ⟨br, bc, -, -, ⟨-, -, rfl⟩ | ⟨-, -, -, rfl⟩⟩
  all_goals simp

/-! ### The fields of the configuration words (R23 to R26) -/

theorem Snapshot.kind_eq (c : Snapshot) : c.kind = c.plane.toNat % 4 := by
  simp [Snapshot.kind, BitVec.extractLsb'_toNat]

theorem Snapshot.w_eq (c : Snapshot) : c.w = c.width.toNat % 65536 := by
  simp [Snapshot.w, BitVec.extractLsb'_toNat]

theorem Snapshot.h_eq (c : Snapshot) : c.h = c.height.toNat % 65536 := by
  simp [Snapshot.h, BitVec.extractLsb'_toNat]

theorem Snapshot.bcolsRec_eq (c : Snapshot) : c.bcolsRec = c.geom.toNat % 65536 := by
  simp [Snapshot.bcolsRec, BitVec.extractLsb'_toNat]

theorem Snapshot.browsRec_eq (c : Snapshot) : c.browsRec = c.geom.toNat / 65536 := by
  have := c.geom.isLt
  simp only [Snapshot.browsRec, BitVec.extractLsb'_toNat, Nat.shiftRight_eq_div_pow]
  omega

/-- DEPTH is PLANE[4] (R23). -/
theorem depthBit_iff (plane : Word) : plane.getLsbD 4 = true ↔ plane.toNat / 16 % 2 = 1 := by
  simp [BitVec.getLsbD, Nat.testBit_eq_decide_div_mod_eq]

theorem Snapshot.n_of_kind_eq_zero (c : Snapshot) (h : c.kind = 0) : c.n = 16 := by
  simp [Snapshot.n, h]

theorem Snapshot.n_of_kind_ne_zero (c : Snapshot) (h : c.kind ≠ 0) : c.n = 8 := by
  simp [Snapshot.n, h]

theorem Snapshot.depth_of_low (c : Snapshot) (h : c.plane.toNat / 16 % 2 = 0) : c.depth = 8 := by
  have hb : ¬c.plane.getLsbD 4 = true := by rw [depthBit_iff]; omega
  exact if_neg hb

theorem Snapshot.depth_of_high (c : Snapshot) (h : c.plane.toNat / 16 % 2 = 1) : c.depth = 10 :=
  if_pos ((depthBit_iff c.plane).2 h)

/-! ### The partition (R135) -/

/-- A coordinate lies in the band `b` of width `n` exactly when `b` is its quotient by `n`. -/
theorem band_iff_eq_div {n b y : Nat} (hn : 0 < n) : (b * n ≤ y ∧ y < (b + 1) * n) ↔ b = y / n := by
  rw [eq_comm, Nat.div_eq_iff hn, Nat.succ_mul]
  omega

/-- A coordinate lies in the band `b` of width `n` exactly when it is the band's start plus an offset below `n`. -/
theorem band_iff_offset {n b y : Nat} : (∃ i < n, b * n + i = y) ↔ b * n ≤ y ∧ y < (b + 1) * n := by
  rw [Nat.succ_mul]
  constructor
  · rintro ⟨i, hi, rfl⟩
    omega
  · rintro ⟨hlo, hhi⟩
    exact ⟨y - b * n, by omega, by omega⟩

/-- An element of a block in a column of the grid and a sample of the plane share a cell exactly when they have the same
row and the same column (R90). -/
theorem cellIndex_eq_sampleIndex_iff (c : Snapshot) {br bc i j x y : Nat} (hbc : bc < c.bcols) (hj : j < c.n)
    (hx : x < c.w) : c.cellIndex br bc i j = c.sampleIndex x y ↔ br * c.n + i = y ∧ bc * c.n + j = x := by
  constructor
  · exact raster_inj (column_lt c hbc hj) hx
  · rintro ⟨rfl, rfl⟩
    rfl

/-- A block covers exactly the samples of its band of rows and its band of columns (R135). -/
theorem block_covers_iff (c : Snapshot) {br bc x y : Nat} (hbc : bc < c.bcols) (hx : x < c.w) :
    (∃ i < c.n, ∃ j < c.n, c.cellIndex br bc i j = c.sampleIndex x y) ↔
      br * c.n ≤ y ∧ y < (br + 1) * c.n ∧ bc * c.n ≤ x ∧ x < (bc + 1) * c.n := by
  have bands : (∃ i < c.n, ∃ j < c.n, c.cellIndex br bc i j = c.sampleIndex x y) ↔
      (∃ i < c.n, br * c.n + i = y) ∧ ∃ j < c.n, bc * c.n + j = x := by
    constructor
    · rintro ⟨i, hi, j, hj, h⟩
      obtain ⟨hy, hx⟩ := (cellIndex_eq_sampleIndex_iff c hbc hj hx).1 h
      exact ⟨⟨i, hi, hy⟩, j, hj, hx⟩
    · rintro ⟨⟨i, hi, hy⟩, j, hj, hx'⟩
      exact ⟨i, hi, j, hj, (cellIndex_eq_sampleIndex_iff c hbc hj hx).2 ⟨hy, hx'⟩⟩
  rw [bands, band_iff_offset, band_iff_offset, and_assoc]

/-- A block covers a sample exactly when it is block (floor(y/N), floor(x/N)) (R135). -/
theorem block_covers_iff_eq_div (c : Snapshot) {br bc x y : Nat} (hbc : bc < c.bcols) (hx : x < c.w) :
    (∃ i < c.n, ∃ j < c.n, c.cellIndex br bc i j = c.sampleIndex x y) ↔ br = y / c.n ∧ bc = x / c.n := by
  rw [block_covers_iff c hbc hx, ← and_assoc, band_iff_eq_div c.n_pos, band_iff_eq_div c.n_pos]

/-- When N divides both sides of the plane, block (floor(y/N), floor(x/N)) of a sample is in the grid (R135). -/
theorem inGrid_of_sample (c : Snapshot) {x y : Nat} (hw : c.bcols * c.n = c.w) (hh : c.brows * c.n = c.h)
    (hx : x < c.w) (hy : y < c.h) : InGrid c (y / c.n) (x / c.n) :=
  ⟨(Nat.div_lt_iff_lt_mul c.n_pos).2 (hh ▸ hy), (Nat.div_lt_iff_lt_mul c.n_pos).2 (hw ▸ hx)⟩

end Sys2Proof.Machine

namespace Sys2Proof.Proofs

open Sys2Proof.Machine

/-- Settles O33: the names of R13 field by field, and the partition of R135 from the bands of rows and columns. -/
theorem everySampleLiesInOneBlock : Obligations.EverySampleLiesInOneBlock := by
  refine ⟨fun s w => s.accept_snap w, exec_snap, fun c => ?_, fun c p hlegal => ?_⟩
  · refine ⟨c.kind_eq, c.bcolsRec_eq, c.browsRec_eq, fun h => c.n_of_kind_eq_zero (c.kind_eq.trans h), fun h => ?_,
      fun h => ?_, fun h => ?_, c.w_eq, c.h_eq, rfl, rfl, fun _ _ => rfl, fun _ _ => rfl, fun _ _ _ _ => rfl⟩
    · have hk := c.kind_eq
      exact c.n_of_kind_ne_zero (by omega)
    · simp [Snapshot.smax, c.depth_of_low h]
    · simp [Snapshot.smax, c.depth_of_high h]
  · obtain ⟨-, -, -, hw, hh, -, -⟩ := hlegal
    have cols : c.bcols * c.n = c.w := Nat.div_mul_cancel (Nat.dvd_of_mod_eq_zero hw)
    have rows : c.brows * c.n = c.h := Nat.div_mul_cancel (Nat.dvd_of_mod_eq_zero hh)
    exact ⟨cols, rows, fun x hx y hy => ⟨inGrid_of_sample c cols rows hx hy, fun br bc hgrid =>
      ⟨block_covers_iff c hgrid.2 hx, block_covers_iff_eq_div c hgrid.2 hx⟩⟩⟩

end Sys2Proof.Proofs
end

section
/-! SUPPORT. The neighbours of a block and its four predictions (rules R160 to R164), the candidate set (R165), the mode
tags (R105, R106), residual, metric and selection (R166 to R169), for the statements of 41_intra_predictor.md. -/

namespace Sys2Proof.Machine

open Sys2Proof.Safety

/-! ### The neighbour samples (R160) -/

/-- The last row (or column) of the block before block `b` is the one just before block `b`. -/
theorem pred_mul_add_last {b n : Nat} (hb : 0 < b) (hn : 0 < n) : (b - 1) * n + (n - 1) = b * n - 1 := by
  obtain ⟨b, rfl⟩ := Nat.exists_eq_add_of_lt hb
  simp only [Nat.zero_add, Nat.add_sub_cancel, Nat.add_mul, Nat.one_mul]
  omega

theorem sampleIndex_above (c : Snapshot) {br : Nat} (bc j : Nat) (hbr : 0 < br) :
    c.sampleIndex (bc * c.n + j) (br * c.n - 1) = c.cellIndex (br - 1) bc (c.n - 1) j := by
  rw [Snapshot.cellIndex, pred_mul_add_last hbr c.n_pos]

theorem sampleIndex_before (c : Snapshot) {bc : Nat} (br i : Nat) (hbc : 0 < bc) :
    c.sampleIndex (bc * c.n - 1) (br * c.n + i) = c.cellIndex br (bc - 1) i (c.n - 1) := by
  rw [Snapshot.cellIndex, pred_mul_add_last hbc c.n_pos]

theorem sampleIndex_corner (c : Snapshot) {br bc : Nat} (hbr : 0 < br) (hbc : 0 < bc) :
    c.sampleIndex (bc * c.n - 1) (br * c.n - 1) = c.cellIndex (br - 1) (bc - 1) (c.n - 1) (c.n - 1) := by
  rw [Snapshot.cellIndex, pred_mul_add_last hbr c.n_pos, pred_mul_add_last hbc c.n_pos]

/-- `Tr[j]` of a block with a block above. -/
theorem State.neighbours_top (s : State) {br j : Nat} (bc : Nat) (hbr : 0 < br) (hj : j < s.snap.n) :
    (s.neighbours br bc).top.getD j 0 = s.reconSample (bc * s.snap.n + j) (br * s.snap.n - 1) := by
  simp [State.neighbours, hbr, hj]

/-- `Lc[i]` of a block with a block to the left. -/
theorem State.neighbours_left (s : State) {bc i : Nat} (br : Nat) (hbc : 0 < bc) (hi : i < s.snap.n) :
    (s.neighbours br bc).left.getD i 0 = s.reconSample (bc * s.snap.n - 1) (br * s.snap.n + i) := by
  simp [State.neighbours, hbc, hi]

/-- `TLc` of a block with a block above and one to the left. -/
theorem State.neighbours_corner (s : State) {br bc : Nat} (hbr : 0 < br) (hbc : 0 < bc) :
    (s.neighbours br bc).corner = s.reconSample (bc * s.snap.n - 1) (br * s.snap.n - 1) :=
  if_pos ⟨hbr, hbc⟩

/-- A RECON cell of an available block of the grid is at most SMAX, by the snapshot of a current configuration. -/
theorem State.reconCell_le_smax (s : State) (hsnap : s.snap = s.liveConfig) (hrange : ReconInRange s)
    {br bc i j : Nat} (hgrid : InGrid s.snap br bc) (havail : s.availBit (s.snap.blockIndex br bc) = true)
    (hi : i < s.snap.n) (hj : j < s.snap.n) :
    ((s.reconCell (s.snap.cellIndex br bc i j)).toNat : Int) ≤ s.snap.smax := by
  rw [hsnap] at hgrid havail hi hj ⊢
  exact hrange br hgrid.1 bc hgrid.2 havail i hi j hj

/-- The neighbours of a block that is causally ready are samples of available blocks, and so in range (R160). -/
theorem State.neighbours_inRange (s : State) {br bc : Nat} (hsnap : s.snap = s.liveConfig) (hrange : ReconInRange s)
    (hgrid : InGrid s.snap br bc) (hready : CausallyReady s br bc) : NeighboursInRange s br bc := by
  obtain ⟨hbr, hbc⟩ := hgrid
  obtain ⟨-, above, before, corner⟩ := hready
  have last : s.snap.n - 1 < s.snap.n := Nat.pred_lt_of_lt s.snap.n_pos
  refine ⟨fun h j hj => ?_, fun h i hi => ?_, fun h h' => ?_⟩
  · rw [State.reconSample, sampleIndex_above s.snap bc j h]
    exact s.reconCell_le_smax hsnap hrange ⟨by omega, hbc⟩ (above h) last hj
  · rw [State.reconSample, sampleIndex_before s.snap br i h]
    exact s.reconCell_le_smax hsnap hrange ⟨hbr, by omega⟩ (before h) hi last
  · rw [State.reconSample, sampleIndex_corner s.snap h h']
    exact s.reconCell_le_smax hsnap hrange ⟨by omega, by omega⟩ (corner h h') last last

/-! ### The four predictions (R161 to R164) -/

theorem State.prediction_at (s : State) (m : PredMode) (br bc : Nat) {i j : Nat} (hi : i < s.snap.n)
    (hj : j < s.snap.n) : blockAt (s.prediction m br bc) i j = predictAt (s.neighbours br bc) i j m :=
  blockAt_blockOf _ _ hi hj

/-- NONE predicts 0 (R164). -/
theorem State.prediction_none (s : State) (br bc : Nat) {i j : Nat} (hi : i < s.snap.n) (hj : j < s.snap.n) :
    blockAt (s.prediction .none br bc) i j = 0 :=
  s.prediction_at .none br bc hi hj

/-- VERTICAL copies `Tr[j]` into every row (R161). -/
theorem State.prediction_vertical (s : State) {br i j : Nat} (bc : Nat) (hbr : 0 < br) (hi : i < s.snap.n)
    (hj : j < s.snap.n) :
    blockAt (s.prediction .vertical br bc) i j = s.reconSample (bc * s.snap.n + j) (br * s.snap.n - 1) :=
  (s.prediction_at .vertical br bc hi hj).trans (s.neighbours_top bc hbr hj)

/-- HORIZONTAL copies `Lc[i]` into every column (R162). -/
theorem State.prediction_horizontal (s : State) {bc i j : Nat} (br : Nat) (hbc : 0 < bc) (hi : i < s.snap.n)
    (hj : j < s.snap.n) :
    blockAt (s.prediction .horizontal br bc) i j = s.reconSample (bc * s.snap.n - 1) (br * s.snap.n + i) :=
  (s.prediction_at .horizontal br bc hi hj).trans (s.neighbours_left br hbc hi)

/-- DIAGONAL copies `TLc` on the diagonal, `Tr` above it and `Lc` below it (R163). -/
theorem State.prediction_diagonal (s : State) {br bc i j : Nat} (hbr : 0 < br) (hbc : 0 < bc) (hi : i < s.snap.n)
    (hj : j < s.snap.n) :
    blockAt (s.prediction .diagonal br bc) i j =
      if i = j then s.reconSample (bc * s.snap.n - 1) (br * s.snap.n - 1)
      else if i < j then s.reconSample (bc * s.snap.n + (j - i - 1)) (br * s.snap.n - 1)
      else s.reconSample (bc * s.snap.n - 1) (br * s.snap.n + (i - j - 1)) := by
  rw [s.prediction_at .diagonal br bc hi hj, predictAt, s.neighbours_corner hbr hbc,
    s.neighbours_top bc hbr (by omega), s.neighbours_left br hbc (by omega)]

/-- DIAGONAL is constant along each down-right diagonal (R163). -/
theorem State.prediction_diagonal_succ (s : State) {br bc i j : Nat} (hbr : 0 < br) (hbc : 0 < bc)
    (hi : i + 1 < s.snap.n) (hj : j + 1 < s.snap.n) :
    blockAt (s.prediction .diagonal br bc) (i + 1) (j + 1) = blockAt (s.prediction .diagonal br bc) i j := by
  rw [s.prediction_diagonal hbr hbc hi hj, s.prediction_diagonal hbr hbc (by omega) (by omega)]
  simp only [Nat.add_right_cancel_iff, Nat.add_lt_add_iff_right, Nat.add_sub_add_right]

/-! ### The candidate set (R165) -/

theorem candidates_corner : candidates 0 0 = [] := rfl

theorem candidates_firstRow {bc : Nat} (hbc : 0 < bc) : candidates 0 bc = [.horizontal] := by
  simp [candidates, hbc]

theorem candidates_firstColumn {br : Nat} (hbr : 0 < br) : candidates br 0 = [.vertical] := by
  simp [candidates, hbr]

theorem candidates_interior {br bc : Nat} (hbr : 0 < br) (hbc : 0 < bc) :
    candidates br bc = [.diagonal, .vertical, .horizontal] := by
  simp [candidates, hbr, hbc]

/-- A candidate is a mode whose neighbours exist. -/
theorem mem_candidates (m : PredMode) (br bc : Nat) :
    m ∈ candidates br bc ↔
      m = .diagonal ∧ 0 < br ∧ 0 < bc ∨ m = .vertical ∧ 0 < br ∨ m = .horizontal ∧ 0 < bc := by
  simp only [candidates, List.mem_append, List.mem_ite_nil_right, List.mem_singleton, and_comm]

/-! ### The mode tags (R105, R106) -/

theorem PredMode.tag_eq_zero_iff (m : PredMode) : m.tag = 0#2 ↔ m = .none := by
  cases m <;> decide

@[simp] theorem PredMode.ofTag_tag (m : PredMode) : PredMode.ofTag m.tag = m := by
  cases m <;> rfl

/-- All four tags are assigned (R106). -/
@[simp] theorem PredMode.tag_ofTag : ∀ t : BitVec 2, (PredMode.ofTag t).tag = t := by decide

/-- The decoder takes bits [1:0] of the MODE cell. -/
theorem State.storedMode_tag_toNat (s : State) (br bc : Nat) :
    (s.storedMode br bc).tag.toNat = (s.modeCell (s.snap.blockIndex br bc)).toNat % 4 := by
  simp [State.storedMode, BitVec.extractLsb'_toNat]

/-! ### Residual and metric (R166, R168) -/

theorem State.candidateResidual_at (s : State) (m : PredMode) (br bc : Nat) {i j : Nat} (hi : i < s.snap.n)
    (hj : j < s.snap.n) :
    blockAt (s.candidateResidual br bc m) i j =
      ((s.origCell (s.snap.cellIndex br bc i j)).toNat : Int) - blockAt (s.prediction m br bc) i j := by
  simp [State.candidateResidual, blockSub, State.origBlock, hi, hj]

/-- One element's share of the metric: its square or its absolute value. -/
def energyTerm (ssd : Bool) (v : Int) : Int := if ssd then v * v else |v|

theorem energyTerm_nonneg (ssd : Bool) (v : Int) : 0 ≤ energyTerm ssd v := by
  cases ssd
  · exact abs_nonneg v
  · exact mul_self_nonneg v

theorem energyTerm_eq_zero_iff (ssd : Bool) (v : Int) : energyTerm ssd v = 0 ↔ v = 0 := by
  cases ssd
  · exact abs_eq_zero
  · exact mul_self_eq_zero

theorem energy_eq_sum (ssd : Bool) (n : Nat) (r : Block) :
    energy ssd n r = ∑ i ∈ Finset.range n, ∑ j ∈ Finset.range n, energyTerm ssd (blockAt r i j) := by
  simp only [energy, sumTo_eq_sum, energyTerm]

theorem energy_nonneg (ssd : Bool) (n : Nat) (r : Block) : 0 ≤ energy ssd n r := by
  rw [energy_eq_sum]
  exact Finset.sum_nonneg fun _ _ => Finset.sum_nonneg fun _ _ => energyTerm_nonneg _ _

/-- A block has the metric 0 exactly when it is the zero block, under either metric. -/
theorem energy_eq_zero_iff (ssd : Bool) (n : Nat) (r : Block) :
    energy ssd n r = 0 ↔ ∀ i < n, ∀ j < n, blockAt r i j = 0 := by
  rw [energy_eq_sum, Finset.sum_eq_zero_iff_of_nonneg fun _ _ => Finset.sum_nonneg fun _ _ => energyTerm_nonneg _ _]
  simp only [Finset.sum_eq_zero_iff_of_nonneg fun _ _ => energyTerm_nonneg _ _, energyTerm_eq_zero_iff, Finset.mem_range]

theorem State.candidateEnergy_nonneg (s : State) (br bc : Nat) (m : PredMode) : 0 ≤ s.candidateEnergy br bc m :=
  energy_nonneg _ _ _

/-! ### Selection (R169) -/

/-- The first candidate wins against candidates whose metrics are no smaller: ties go to the earlier one. -/
theorem selectMode_head (e : PredMode → Int) (m : PredMode) (rest : List PredMode) (h : ∀ x ∈ rest, e m ≤ e x) :
    selectMode e (m :: rest) = m := by
  simp only [selectMode]
  induction rest with
  | nil => rfl
  | cons x rest ih =>
    rw [List.forall_mem_cons] at h
    rw [List.foldl_cons, if_neg (not_lt.2 h.1)]
    exact ih h.2

/-- A first candidate is dropped when the second has a strictly smaller metric. -/
theorem selectMode_second (e : PredMode → Int) {m x : PredMode} (rest : List PredMode) (h : e x < e m) :
    selectMode e (m :: x :: rest) = selectMode e (x :: rest) := by
  simp only [selectMode, List.foldl_cons, if_pos h]

/-- A candidate with the metric 0 wins against all after it. -/
theorem State.selectMode_head_of_zero (s : State) (br bc : Nat) {m : PredMode} (rest : List PredMode)
    (h : s.candidateEnergy br bc m = 0) : selectMode (s.candidateEnergy br bc) (m :: rest) = m :=
  selectMode_head _ m rest fun x _ => h.trans_le (s.candidateEnergy_nonneg br bc x)

theorem State.selectedMode_corner (s : State) : s.selectedMode 0 0 = .none := by
  rw [State.selectedMode, candidates_corner]
  rfl

theorem State.selectedMode_firstRow (s : State) {bc : Nat} (hbc : 0 < bc) : s.selectedMode 0 bc = .horizontal := by
  rw [State.selectedMode, candidates_firstRow hbc]
  rfl

theorem State.selectedMode_firstColumn (s : State) {br : Nat} (hbr : 0 < br) : s.selectedMode br 0 = .vertical := by
  rw [State.selectedMode, candidates_firstColumn hbr]
  rfl

/-- DIAGONAL is first in the preference order, so it wins every tie at 0. -/
theorem State.selectedMode_of_diagonal_zero (s : State) {br bc : Nat} (hbr : 0 < br) (hbc : 0 < bc)
    (h : s.candidateEnergy br bc .diagonal = 0) : s.selectedMode br bc = .diagonal := by
  rw [State.selectedMode, candidates_interior hbr hbc, s.selectMode_head_of_zero br bc _ h]

/-- VERTICAL with the metric 0 loses to DIAGONAL's 0 alone. -/
theorem State.selectedMode_of_vertical_zero (s : State) {br bc : Nat} (hbr : 0 < br) (hbc : 0 < bc)
    (h : s.candidateEnergy br bc .vertical = 0) (hpos : 0 < s.candidateEnergy br bc .diagonal) :
    s.selectedMode br bc = .vertical := by
  rw [State.selectedMode, candidates_interior hbr hbc, selectMode_second _ _ (h.trans_lt hpos),
    s.selectMode_head_of_zero br bc _ h]

/-- Where VERTICAL's metric is 0, so is the selected mode's: VERTICAL is selected, or DIAGONAL with the metric 0. -/
theorem State.selectedEnergy_of_vertical_zero (s : State) {br : Nat} (bc : Nat) (hbr : 0 < br)
    (h : s.candidateEnergy br bc .vertical = 0) : s.candidateEnergy br bc (s.selectedMode br bc) = 0 := by
  rcases Nat.eq_zero_or_pos bc with rfl | hbc
  · rw [s.selectedMode_firstColumn hbr, h]
  · rcases (s.candidateEnergy_nonneg br bc .diagonal).eq_or_lt with hzero | hpos
    · rw [s.selectedMode_of_diagonal_zero hbr hbc hzero.symm, ← hzero]
    · rw [s.selectedMode_of_vertical_zero hbr hbc h hpos, h]

/-- Content equal to the VERTICAL prediction has the metric 0 under VERTICAL (R174). -/
theorem State.verticalEnergy_eq_zero (s : State) {br bc : Nat} (hbr : 0 < br)
    (hcontent : ∀ i < s.snap.n, ∀ j < s.snap.n, ((s.origCell (s.snap.cellIndex br bc i j)).toNat : Int) =
      s.reconSample (bc * s.snap.n + j) (br * s.snap.n - 1)) : s.candidateEnergy br bc .vertical = 0 := by
  refine (energy_eq_zero_iff _ _ _).2 fun i hi j hj => ?_
  rw [s.candidateResidual_at .vertical br bc hi hj, s.prediction_vertical bc hbr hi hj, hcontent i hi j hj, sub_self]

end Sys2Proof.Machine

namespace Sys2Proof.Proofs

open Sys2Proof.Machine

/-- Settles O41: the candidate set of a boundary block has at most one mode. -/
theorem boundaryBlocksHaveOneMode : Obligations.BoundaryBlocksHaveOneMode :=
  fun s _ _ => ⟨s.selectedMode_corner, s.selectedMode_firstRow, s.selectedMode_firstColumn⟩

/-- Settles O42: VERTICAL's metric is 0, so the first candidate with metric 0 is VERTICAL or a DIAGONAL before it, and a
metric of 0 leaves no residual. -/
theorem verticalContentSelectsVerticalOrDiagonal : Obligations.VerticalContentSelectsVerticalOrDiagonal := by
  intro s br bc hbr hcontent
  have hzero := s.verticalEnergy_eq_zero hbr hcontent
  refine ⟨hzero, ?_, fun hbc hpos => s.selectedMode_of_vertical_zero hbr hbc hzero hpos,
    fun hbc hdiag => s.selectedMode_of_diagonal_zero hbr hbc hdiag,
    (energy_eq_zero_iff _ _ _).1 (s.selectedEnergy_of_vertical_zero bc hbr hzero)⟩
  rintro rfl
  exact s.selectedMode_firstColumn hbr

/-- Settles O38: the neighbour vectors as RECON's last row, column and corner, and each prediction as a copy of them. -/
theorem predictionsCopyTheNeighbours : Obligations.PredictionsCopyTheNeighbours := by
  intro s br bc
  refine ⟨fun hbr j hj => ⟨s.neighbours_top bc hbr hj, sampleIndex_above s.snap bc j hbr⟩,
    fun hbc i hi => ⟨s.neighbours_left br hbc hi, sampleIndex_before s.snap br i hbc⟩,
    fun hbr hbc => ⟨s.neighbours_corner hbr hbc, sampleIndex_corner s.snap hbr hbc⟩,
    fun _ _ => rfl, fun m hm => ?_, s.neighbours_inRange,
    PredMode.tag_eq_zero_iff, rfl, rfl, rfl, PredMode.ofTag_tag, s.storedMode_tag_toNat br bc, fun i hi j hj => ?_⟩
  · rcases (mem_candidates m br bc).1 hm with ⟨rfl, hbr, hbc⟩ | ⟨rfl, hbr⟩ | ⟨rfl, hbc⟩
    · exact ⟨nofun, nofun, fun _ => ⟨hbr, hbc⟩⟩
    · exact ⟨fun _ => hbr, nofun, nofun⟩
    · exact ⟨nofun, fun _ => hbc, nofun⟩
  · exact ⟨s.prediction_none br bc hi hj, fun hbr => s.prediction_vertical bc hbr hi hj,
      fun hbc => s.prediction_horizontal br hbc hi hj, fun hbr hbc =>
        ⟨s.prediction_diagonal hbr hbc hi hj, by omega, by omega, s.prediction_diagonal_succ hbr hbc⟩⟩

end Sys2Proof.Proofs
end

section
/-! SUPPORT. The rounding (R205), both transforms as one rounded bilinear sum over the table (R203, R204), the facts of the
tables behind R200, and the exact round trip (R206), for the statements of 42_transform.md. -/

namespace Sys2Proof.Machine

open Matrix

/-! ### Rounding (R205) -/

theorem rnd_mul_le (a : Int) (s : Nat) : rnd a s * 2 ^ s ≤ a + 2 ^ (s - 1) :=
  Int.ediv_mul_le _ (by positivity)

theorem lt_rnd_add_one_mul (a : Int) (s : Nat) : a + 2 ^ (s - 1) < (rnd a s + 1) * 2 ^ s :=
  Int.lt_ediv_add_one_mul_self _ (by positivity)

/-- The two halves of the rounding unit. -/
theorem two_pow_eq_half_add_half {s : Nat} (hs : 1 ≤ s) : (2 : Int) ^ s = 2 ^ (s - 1) + 2 ^ (s - 1) := by
  rw [← two_mul, ← pow_succ', Nat.sub_add_cancel hs]

/-- Rounding is off by at most half a unit. -/
theorem abs_rnd_error_le (a : Int) {s : Nat} (hs : 1 ≤ s) : |2 ^ s * rnd a s - a| ≤ 2 ^ (s - 1) := by
  have hlo := rnd_mul_le a s
  have hhi := lt_rnd_add_one_mul a s
  have hhalf := two_pow_eq_half_add_half hs
  rw [abs_le]
  constructor <;> linarith

/-- A value strictly within half a unit of a multiple of the unit rounds to that multiple. -/
theorem rnd_eq_of_abs_sub_lt {a v : Int} {s : Nat} (hs : 1 ≤ s) (h : |a - 2 ^ s * v| < 2 ^ (s - 1)) : rnd a s = v := by
  obtain ⟨hlo, hhi⟩ := abs_lt.1 h
  have hhalf := two_pow_eq_half_add_half hs
  exact (Int.ediv_eq_iff_of_pos (by positivity)).2 ⟨by linarith, by linarith⟩

theorem rnd_zero {s : Nat} (hs : 1 ≤ s) : rnd 0 s = 0 := rnd_eq_of_abs_sub_lt hs (by simp)

/-! ### The transforms as bilinear sums (R203, R204) -/

theorem blockOf_congr {n : Nat} {f g : Nat → Nat → Int} (h : ∀ i < n, ∀ j < n, f i j = g i j) :
    blockOf n f = blockOf n g :=
  List.map_congr_left fun i hi => List.map_congr_left fun j hj => h i (List.mem_range.1 hi) j (List.mem_range.1 hj)

/-- The form `Σ_i Σ_j f(i)·b(i, j)·g(j)` that both passes of a transform compute together. -/
def bilinearSum (n : Nat) (f g : Nat → Int) (b : Block) : Int :=
  ∑ i ∈ Finset.range n, ∑ j ∈ Finset.range n, f i * blockAt b i j * g j

theorem bilinearSum_comm (n : Nat) (f g : Nat → Int) (b : Block) :
    bilinearSum n f g b = ∑ j ∈ Finset.range n, ∑ i ∈ Finset.range n, f i * blockAt b i j * g j :=
  Finset.sum_comm

theorem bilinearSum_blockOf (n : Nat) (f g : Nat → Int) (b : Nat → Nat → Int) :
    bilinearSum n f g (blockOf n b) = ∑ i ∈ Finset.range n, ∑ j ∈ Finset.range n, f i * b i j * g j := by
  refine Finset.sum_congr rfl fun i hi => Finset.sum_congr rfl fun j hj => ?_
  rw [blockAt_blockOf n b (Finset.mem_range.1 hi) (Finset.mem_range.1 hj)]

/-- The form of a constant block is the product of the two sums. -/
theorem bilinearSum_const (n : Nat) (f g : Nat → Int) (c : Int) :
    bilinearSum n f g (blockOf n fun _ _ => c) =
      (∑ i ∈ Finset.range n, f i) * (∑ j ∈ Finset.range n, g j) * c := by
  rw [bilinearSum_blockOf, Finset.sum_mul_sum, Finset.sum_mul]
  simp only [Finset.sum_mul, mul_right_comm]

/-- The form of a block that is 0 outside element (0, 0) is that element's term. -/
theorem bilinearSum_corner {n : Nat} (hn : 0 < n) (f g : Nat → Int) (c : Int) :
    bilinearSum n f g (blockOf n fun i j => if i = 0 ∧ j = 0 then c else 0) = f 0 * c * g 0 := by
  simp [bilinearSum_blockOf, ite_and, hn]

/-- The forward transform by rows and columns is one sum for each coefficient, rounded by 24. -/
theorem fdct_eq_blockOf (n : Nat) (r : Block) :
    fdct n r = blockOf n fun k l => rnd (bilinearSum n (blockAt (basis n) k) (blockAt (basis n) l) r) 24 := by
  refine blockOf_congr fun k hk l hl => ?_
  simp only [blockAt_blockOf, hk, hl, sumTo_eq_sum, bilinearSum]
  congr 1
  refine Finset.sum_congr rfl fun i hi => ?_
  rw [blockAt_blockOf n _ (Finset.mem_range.1 hi) hl, Finset.mul_sum]
  simp only [mul_assoc]

theorem fdct_at (n : Nat) (r : Block) {k l : Nat} (hk : k < n) (hl : l < n) :
    blockAt (fdct n r) k l = rnd (bilinearSum n (blockAt (basis n) k) (blockAt (basis n) l) r) 24 := by
  rw [fdct_eq_blockOf, blockAt_blockOf n _ hk hl]

/-- The inverse transform by columns and rows is one sum, rounded by 40. -/
theorem idct_at (n : Nat) (c : Block) {m x : Nat} (hm : m < n) (hx : x < n) :
    blockAt (idct n c) m x =
      rnd (bilinearSum n (fun k => blockAt (basis n) k m) (fun l => blockAt (basis n) l x) c) 40 := by
  simp only [idct, blockAt_blockOf, hm, hx, sumTo_eq_sum, bilinearSum_comm]
  congr 1
  refine Finset.sum_congr rfl fun l hl => ?_
  rw [blockAt_blockOf n _ hm (Finset.mem_range.1 hl), Finset.sum_mul]

/-! ### The transforms as matrix products -/

/-- A block as a matrix. -/
def blockMatrix (n : Nat) (b : Block) : Matrix (Fin n) (Fin n) Int := Matrix.of fun i j => blockAt b i j

@[simp] theorem blockMatrix_apply (n : Nat) (b : Block) (i j : Fin n) : blockMatrix n b i j = blockAt b i j := rfl

/-- The bilinear sum along row `k` of `A` and row `l` of `B` is an element of the product of three matrices. -/
theorem bilinearSum_eq_mul_apply {n : Nat} (A B : Matrix (Fin n) (Fin n) Int) (b : Block) {f g : Nat → Int}
    {k l : Fin n} (hf : ∀ i : Fin n, f i = A k i) (hg : ∀ j : Fin n, g j = B l j) :
    bilinearSum n f g b = (A * blockMatrix n b * Bᵀ) k l := by
  rw [bilinearSum_comm, Matrix.mul_apply]
  simp only [Finset.sum_range, hf, hg, Matrix.mul_apply, blockMatrix_apply, Matrix.transpose_apply, Finset.sum_mul]

/-- `u = M·R·Mᵀ` (R203). -/
theorem fdct_apply (n : Nat) (r : Block) (k l : Fin n) :
    blockAt (fdct n r) k l =
      rnd ((blockMatrix n (basis n) * blockMatrix n r * (blockMatrix n (basis n))ᵀ) k l) 24 := by
  rw [fdct_at n r k.isLt l.isLt, bilinearSum_eq_mul_apply (blockMatrix n (basis n)) (blockMatrix n (basis n)) r
    (fun _ => rfl) (fun _ => rfl)]

/-- `w = Mᵀ·C·M` (R204). -/
theorem idct_apply (n : Nat) (c : Block) (m x : Fin n) :
    blockAt (idct n c) m x =
      rnd (((blockMatrix n (basis n))ᵀ * blockMatrix n c * blockMatrix n (basis n)) m x) 40 := by
  rw [idct_at n c m.isLt x.isLt, bilinearSum_eq_mul_apply (blockMatrix n (basis n))ᵀ (blockMatrix n (basis n))ᵀ c
    (fun _ => rfl) (fun _ => rfl), Matrix.transpose_transpose]

/-! ### Bounds on the elements of a product -/

section
variable {n : Nat} {A B : Matrix (Fin n) (Fin n) Int} {a b : Int}

theorem abs_mul_apply_le_of_row {i j : Fin n} (hA : ∑ k, |A i k| ≤ a) (hB : ∀ k, |B k j| ≤ b) (hb : 0 ≤ b) :
    |(A * B) i j| ≤ a * b :=
  calc |(A * B) i j| ≤ ∑ k, |A i k * B k j| := by
        rw [Matrix.mul_apply]
        exact Finset.abs_sum_le_sum_abs _ _
    _ ≤ ∑ k, |A i k| * b := Finset.sum_le_sum fun k _ => by
        rw [abs_mul]
        exact mul_le_mul_of_nonneg_left (hB k) (abs_nonneg _)
    _ = (∑ k, |A i k|) * b := (Finset.sum_mul _ _ _).symm
    _ ≤ a * b := mul_le_mul_of_nonneg_right hA hb

theorem abs_mul_apply_le_of_column {i j : Fin n} (hA : ∀ k, |A i k| ≤ a) (hB : ∑ k, |B k j| ≤ b) (ha : 0 ≤ a) :
    |(A * B) i j| ≤ a * b := by
  rw [← Matrix.transpose_apply (A * B) j i, Matrix.transpose_mul, mul_comm a b]
  exact abs_mul_apply_le_of_row hB hA ha

/-- A row of elements of size at most `a` has the absolute sum `n·a` at most. -/
theorem sum_abs_le_card_mul {f : Fin n → Int} (h : ∀ k, |f k| ≤ a) : ∑ k, |f k| ≤ n * a := by
  simpa using Finset.sum_le_card_nsmul Finset.univ (fun k => |f k|) a fun k _ => h k

end

/-! ### The tables are nearly orthogonal (R200) -/

/-- How far `Mᵀ·M` is from `2^32·I`. -/
def gramDeviation {n : Nat} (M : Matrix (Fin n) (Fin n) Int) : Matrix (Fin n) (Fin n) Int :=
  Mᵀ * M - (2 ^ 32 : Int) • 1

theorem gram_eq {n : Nat} (M : Matrix (Fin n) (Fin n) Int) : Mᵀ * M = (2 ^ 32 : Int) • 1 + gramDeviation M :=
  (add_sub_cancel _ _).symm

/-- The columns of `M` are orthogonal and of length 2^16, up to `g` in each element of the Gram matrix, and no column's
absolute sum is above `s`. -/
structure NearlyOrthogonal {n : Nat} (M : Matrix (Fin n) (Fin n) Int) (g s : Int) : Prop where
  gram : ∀ i j, |gramDeviation M i j| ≤ g
  column : ∀ j, ∑ k, |M k j| ≤ s

/-- The bounds of R200 and R208 for `M_8`. -/
theorem nearlyOrthogonal_basis8 : NearlyOrthogonal (blockMatrix 8 (basis 8)) 68876 173136 :=
  ⟨by decide +kernel, by decide +kernel⟩

/-- The bounds of R200 and R208 for `M_16`. -/
theorem nearlyOrthogonal_basis16 : NearlyOrthogonal (blockMatrix 16 (basis 16)) 36127 240622 :=
  ⟨by decide +kernel, by decide +kernel⟩

/-! ### The exact round trip (R206) -/

/-- What the inverse's sums are, from the Gram matrix and the forward rounding error `E = 2^24·C − M·R·Mᵀ`. -/
theorem inverse_of_forward_eq {n : Nat} {M R C E : Matrix (Fin n) (Fin n) Int}
    (hC : (2 ^ 24 : Int) • C = M * R * Mᵀ + E) :
    (2 ^ 24 : Int) • (Mᵀ * C * M) =
      (2 ^ 64 : Int) • R + ((2 ^ 32 : Int) • (gramDeviation M * R + R * gramDeviation M) +
        gramDeviation M * R * gramDeviation M + Mᵀ * E * M) :=
  calc (2 ^ 24 : Int) • (Mᵀ * C * M) = Mᵀ * ((2 ^ 24 : Int) • C) * M := by
        rw [Matrix.mul_smul, Matrix.smul_mul]
    _ = (Mᵀ * M) * R * (Mᵀ * M) + Mᵀ * E * M := by
        rw [hC, Matrix.mul_add, Matrix.add_mul]
        simp only [Matrix.mul_assoc]
    _ = _ := by
        rw [gram_eq]
        simp only [Matrix.add_mul, Matrix.mul_add, Matrix.smul_mul, Matrix.mul_smul, Matrix.one_mul, Matrix.mul_one,
          smul_add, smul_smul, ← pow_add]
        abel

/-- The inverse's sums miss `2^64·R` by what the Gram matrix and the forward rounding contribute. -/
theorem abs_inverse_of_forward_sub_le {n : Nat} {M R C E : Matrix (Fin n) (Fin n) Int} {g s ρ ε : Int}
    (hM : NearlyOrthogonal M g s) (hR : ∀ i j, |R i j| ≤ ρ) (hE : ∀ i j, |E i j| ≤ ε)
    (hC : (2 ^ 24 : Int) • C = M * R * Mᵀ + E) (m x : Fin n) :
    |2 ^ 24 * (Mᵀ * C * M) m x - 2 ^ 64 * R m x| ≤
      2 ^ 32 * (n * g * ρ + ρ * (n * g)) + n * g * ρ * (n * g) + s * ε * s := by
  have hρ : 0 ≤ ρ := (abs_nonneg _).trans (hR m x)
  have hε : 0 ≤ ε := (abs_nonneg _).trans (hE m x)
  have hs : 0 ≤ s := (Finset.sum_nonneg fun k _ => abs_nonneg _).trans (hM.column x)
  have hg : 0 ≤ n * g := mul_nonneg (by positivity) ((abs_nonneg _).trans (hM.gram m x))
  have hrow (i : Fin n) : ∑ k, |gramDeviation M i k| ≤ n * g := sum_abs_le_card_mul (hM.gram i)
  have hcol (j : Fin n) : ∑ k, |gramDeviation M k j| ≤ n * g := sum_abs_le_card_mul fun k => hM.gram k j
  have hDR (j : Fin n) : |(gramDeviation M * R) m j| ≤ n * g * ρ :=
    abs_mul_apply_le_of_row (hrow m) (fun k => hR k j) hρ
  have hRD : |(R * gramDeviation M) m x| ≤ ρ * (n * g) := abs_mul_apply_le_of_column (hR m) (hcol x) hρ
  have hDRD : |(gramDeviation M * R * gramDeviation M) m x| ≤ n * g * ρ * (n * g) :=
    abs_mul_apply_le_of_column hDR (hcol x) (mul_nonneg hg hρ)
  have hME (j : Fin n) : |(Mᵀ * E) m j| ≤ s * ε := abs_mul_apply_le_of_row (hM.column m) (fun k => hE k j) hε
  have hMEM : |(Mᵀ * E * M) m x| ≤ s * ε * s := abs_mul_apply_le_of_column hME (hM.column x) (mul_nonneg hs hε)
  have heq := congrFun (congrFun (inverse_of_forward_eq hC) m) x
  simp only [Matrix.add_apply, Matrix.smul_apply, smul_eq_mul] at heq
  have hDRx := hDR x
  rw [heq, add_sub_cancel_left]
  rw [abs_le] at hDRx hRD hDRD hMEM ⊢
  constructor <;> linarith

/-- The forward rounding error `E = 2^24·C − M·R·Mᵀ` of a block. -/
def forwardError (n : Nat) (r : Block) : Matrix (Fin n) (Fin n) Int :=
  (2 ^ 24 : Int) • blockMatrix n (fdct n r) - blockMatrix n (basis n) * blockMatrix n r * (blockMatrix n (basis n))ᵀ

theorem coefficients_eq (n : Nat) (r : Block) :
    (2 ^ 24 : Int) • blockMatrix n (fdct n r) =
      blockMatrix n (basis n) * blockMatrix n r * (blockMatrix n (basis n))ᵀ + forwardError n r :=
  (add_sub_cancel _ _).symm

/-- The one rounding of the forward transform is off by at most 1/2 (R205, R206). -/
theorem abs_forwardError_le (n : Nat) (r : Block) (k l : Fin n) : |forwardError n r k l| ≤ 2 ^ 23 := by
  rw [forwardError, Matrix.sub_apply, Matrix.smul_apply, smul_eq_mul, blockMatrix_apply, fdct_apply]
  exact abs_rnd_error_le _ (by decide)

/-- A nearly orthogonal table whose errors add up to less than half a unit makes the round trip exact. -/
theorem idct_fdct_of_nearlyOrthogonal {n : Nat} {g s : Int} (hM : NearlyOrthogonal (blockMatrix n (basis n)) g s)
    (hsmall : 2 ^ 32 * (n * g * 1023 + 1023 * (n * g)) + n * g * 1023 * (n * g) + s * 2 ^ 23 * s < 2 ^ 63)
    {r : Block} (hr : ∀ i < n, ∀ j < n, |blockAt r i j| ≤ 1023) (m x : Fin n) :
    blockAt (idct n (fdct n r)) m x = blockAt r m x := by
  have hmiss := abs_inverse_of_forward_sub_le hM (R := blockMatrix n r) (fun i j => hr i i.isLt j j.isLt)
    (abs_forwardError_le n r) (coefficients_eq n r) m x
  have hlt := abs_lt.1 (hmiss.trans_lt hsmall)
  rw [blockMatrix_apply] at hlt
  rw [idct_apply]
  refine rnd_eq_of_abs_sub_lt (by decide) (abs_lt.2 ?_)
  omega

/-! ### Reference values (R213) -/

/-- Row k of `M_16` sums to 2^18 for k = 0, and to 0 for every other k (R200). -/
theorem basis16_rowSum : ∀ k < 16,
    ∑ x ∈ Finset.range 16, blockAt (basis 16) k x = if k = 0 then 262144 else 0 := by decide +kernel

/-- Row k of `M_8` sums to 8 · 23170 for k = 0, and to 0 for every other k (R200). -/
theorem basis8_rowSum : ∀ k < 8,
    ∑ x ∈ Finset.range 8, blockAt (basis 8) k x = if k = 0 then 185360 else 0 := by decide +kernel

theorem basis16_row0 : ∀ x < 16, blockAt (basis 16) 0 x = 16384 := by decide

theorem basis8_row0 : ∀ x < 8, blockAt (basis 8) 0 x = 23170 := by decide

/-- A table whose rows k ≥ 1 sum to 0 takes a constant block to a DC coefficient alone. -/
theorem fdct_const {n : Nat} {σ : Int}
    (hrow : ∀ k < n, ∑ x ∈ Finset.range n, blockAt (basis n) k x = if k = 0 then σ else 0) (c : Int) {k l : Nat}
    (hk : k < n) (hl : l < n) :
    blockAt (fdct n (blockOf n fun _ _ => c)) k l = if k = 0 ∧ l = 0 then rnd (σ * σ * c) 24 else 0 := by
  rw [fdct_at n _ hk hl, bilinearSum_const, hrow k hk, hrow l hl]
  by_cases hk0 : k = 0
  · by_cases hl0 : l = 0
    · simp [hk0, hl0]
    · simp [hl0, rnd_zero]
  · simp [hk0, rnd_zero]

/-- The inverse of a DC coefficient alone is constant where the table's first row is. -/
theorem idct_dc {n : Nat} {β : Int} (hrow : ∀ x < n, blockAt (basis n) 0 x = β) (c : Int) {m x : Nat} (hm : m < n)
    (hx : x < n) : blockAt (idct n (blockOf n fun k l => if k = 0 ∧ l = 0 then c else 0)) m x = rnd (β * c * β) 40 := by
  rw [idct_at n _ hm hx, bilinearSum_corner (Nat.zero_lt_of_lt hm), hrow m hm, hrow x hx]

/-- The DC gain of `M_16` is 4096, without a rounding. -/
theorem rnd_dcGain16 (c : Int) : rnd (262144 * 262144 * c) 24 = 4096 * c :=
  rnd_eq_of_abs_sub_lt (by decide) (by
    rw [show 262144 * 262144 * c - 2 ^ 24 * (4096 * c) = 0 by ring]
    decide)

/-- The impulse's coefficients are the rounded products of the table's first column. -/
theorem fdct_impulse (n : Nat) :
    fdct n (blockOf n fun i j => if i = 0 ∧ j = 0 then 1 else 0) =
      blockOf n fun k l => rnd (blockAt (basis n) k 0 * blockAt (basis n) l 0) 24 := by
  rw [fdct_eq_blockOf]
  refine blockOf_congr fun k hk l _ => ?_
  rw [bilinearSum_corner (Nat.zero_lt_of_lt hk), mul_one]

end Sys2Proof.Machine

namespace Sys2Proof.Proofs

open Sys2Proof.Machine

/-- Settles O43: the tables' deviation from orthogonality and the forward rounding together stay below half a unit of the
inverse's rounding (R206). -/
theorem transformRoundTripIsExact : Obligations.TransformRoundTripIsExact := by
  refine ⟨fun n r hn hr i hi j hj => ?_, fun i hi j hj => ?_⟩
  · rcases hn with rfl | rfl
    · exact idct_fdct_of_nearlyOrthogonal nearlyOrthogonal_basis8 (by norm_num) hr ⟨i, hi⟩ ⟨j, hj⟩
    · exact idct_fdct_of_nearlyOrthogonal nearlyOrthogonal_basis16 (by norm_num) hr ⟨i, hi⟩ ⟨j, hj⟩
  · rw [idct_dc basis8_row0 256 hi hj]
    decide

/-- Settles O46: RND by the two bounds of a floor, the transforms as bilinear sums, and the values of R213 from the row
sums, the first row and the first column of the tables. -/
theorem constantBlocksHaveOnlyADcCoefficient : Obligations.ConstantBlocksHaveOnlyADcCoefficient := by
  refine ⟨fun a s _ => ⟨rnd_mul_le a s, lt_rnd_add_one_mul a s⟩, by decide, fun n r k hk l hl => ⟨fdct_at n r hk hl, ?_⟩,
    fun n c m hm x hx => ?_, rfl, rfl, fun c k l => ⟨fun hk hl => ?_, fun hk hl => ?_⟩, by decide, fun p hp m hm x hx => ?_,
    fun p hp m hm x hx => ?_, fun p hp c hc => ?_⟩
  · rw [← bilinearSum_comm]
    exact fdct_at n r hk hl
  · rw [← bilinearSum_comm n (fun k => blockAt (basis n) k m) (fun l => blockAt (basis n) l x)]
    exact idct_at n c hm hx
  · rw [fdct_const basis16_rowSum c hk hl, rnd_dcGain16]
  · rw [fdct_const basis8_rowSum c hk hl]
    rfl
  · rw [idct_dc basis16_row0 p.1 hm hx]
    revert p
    decide
  · rw [idct_dc basis8_row0 p.1 hm hx]
    revert p
    decide
  · subst hc
    rw [fdct_impulse]
    revert p
    decide +kernel

end Sys2Proof.Proofs
end

section
/-! SUPPORT. A script of host writes to registers (rules R70 to R73) and the configuration writes in IDLE (R22 to R28),
for the statements of 70_reset_and_hazards.md. -/

namespace Sys2Proof.Machine

/-! ### The host's side: the script and the answers, which are the model's own -/

/-- `s` with this script left and these answers given. -/
def State.withHost (s : State) (script : List Input) (answers : List Answer) : State :=
  { s with pending := script, answers := answers }

@[simp] theorem State.withHost_self (s : State) : s.withHost s.pending s.answers = s := rfl
@[simp] theorem State.withHost_withHost (s : State) (p q : List Input) (a b : List Answer) :
    (s.withHost p a).withHost q b = s.withHost q b := rfl
@[simp] theorem State.withHost_answers (s : State) (p : List Input) (a : List Answer) :
    (s.withHost p a).answers = a := rfl
@[simp] theorem State.withHost_busy (s : State) (p : List Input) (a : List Answer) :
    (s.withHost p a).busy = s.busy := rfl
@[simp] theorem State.withHost_status (s : State) (p : List Input) (a : List Answer) :
    (s.withHost p a).status = s.status := rfl
@[simp] theorem State.withHost_resetLine (s : State) (p : List Input) (a : List Answer) :
    (s.withHost p a).resetLine = s.resetLine := rfl
@[simp] theorem State.withHost_capacity (s : State) (p : List Input) (a : List Answer) :
    (s.withHost p a).capacity = s.capacity := rfl
@[simp] theorem State.withHost_dropWrite (s : State) (p : List Input) (a : List Answer) :
    (s.withHost p a).dropWrite = s.dropWrite.withHost p a := rfl
@[simp] theorem State.withHost_accept (s : State) (v : Word) (p : List Input) (a : List Answer) :
    (s.withHost p a).accept v = (s.accept v).withHost p a := rfl

theorem State.configWrite_withHost (s t : State) (p : List Input) (a : List Answer) :
    (s.withHost p a).configWrite (t.withHost p a) = (s.configWrite t).withHost p a := by
  cases h : s.busy <;> simp [State.configWrite, h]

theorem State.issue_withHost (s : State) (v : Word) (p : List Input) (a : List Answer) :
    (s.withHost p a).issue v = (s.issue v).withHost p a := by
  cases hbusy : s.busy <;> cases herr : s.status.err <;> simp [State.issue, hbusy, herr]

theorem State.writeStatus_withHost (s : State) (v : Word) (p : List Input) (a : List Answer) :
    (s.withHost p a).writeStatus v = (s.writeStatus v).withHost p a := by
  unfold State.writeStatus
  cases v.getLsbD 2 <;> rfl

/-- A register write neither reads nor changes the script and the answers. -/
theorem State.writeRegister_withHost (s : State) (offset : Nat) (v : Word) (p : List Input) (a : List Answer) :
    (s.withHost p a).writeRegister offset v = (s.writeRegister offset v).withHost p a := by
  unfold State.writeRegister
  split
  · exact s.configWrite_withHost { s with ctrl := v &&& 0x00000007#32 } p a
  · exact s.configWrite_withHost { s.clearAvail with plane := v &&& 0x00000013#32 } p a
  · exact s.configWrite_withHost { s.clearAvail with width := v &&& 0x0000FFFF#32 } p a
  · exact s.configWrite_withHost { s.clearAvail with height := v &&& 0x0000FFFF#32 } p a
  · exact s.configWrite_withHost { s with geom := v } p a
  · exact s.issue_withHost v p a
  · exact s.writeStatus_withHost v p a
  · rfl

@[simp] theorem State.writeStatus_resetLine (s : State) (v : Word) : (s.writeStatus v).resetLine = s.resetLine := by
  unfold State.writeStatus
  split <;> rfl

@[simp] theorem State.writeRegister_resetLine (s : State) (offset : Nat) (v : Word) :
    (s.writeRegister offset v).resetLine = s.resetLine := by
  rcases writeRegister_cases s offset v with
    h | h | ⟨-, -, h⟩ | ⟨-, -, h⟩ | ⟨-, -, h⟩ | ⟨-, -, h⟩ | ⟨-, -, h⟩ | ⟨-, -, -, h⟩ | ⟨-, h⟩ <;> simp [h]

/-! ### A script of register writes (R70 to R73) -/

/-- An address of the register block: below 0x1000 and word-aligned (R72, R73). -/
abbrev RegisterAddress (addr : Word) : Prop := addr.toNat % 4 = 0 ∧ addr.toNat < 0x1000

theorem target_of_registerAddress (c : Capacity) {addr : Word} (h : RegisterAddress addr) :
    target c addr .word = .register addr.toNat := by
  simp [target, h.1, h.2]

theorem step_hostWr_register (s : State) {addr : Word} (v : Word) {rest : List Input} (h : RegisterAddress addr)
    (hreset : s.resetLine = false) (hscript : s.pending = hostWr addr v :: rest) :
    step s = .next ((s.writeRegister addr.toNat v).withHost rest (.done :: s.answers)) := by
  have hturn : step s = State.busTurn (.write addr .word v) (s.withHost rest s.answers) := by
    unfold step
    rw [hscript]
    rfl
  have hanswer : (s.withHost rest s.answers).transact (.write addr .word v) =
      (.done, (s.writeRegister addr.toNat v).withHost rest s.answers) := by
    simp [State.transact, target_of_registerAddress s.capacity h, s.writeRegister_withHost]
  rw [hturn, State.busTurn, hanswer]
  exact if_neg (by simp [hreset])

/-- Register writes one after the other, each an address and a value. -/
def State.writeRegisters (s : State) (writes : List (Word × Word)) : State :=
  writes.foldl (fun t w => t.writeRegister w.1.toNat w.2) s

@[simp] theorem State.writeRegisters_nil (s : State) : s.writeRegisters [] = s := rfl
@[simp] theorem State.writeRegisters_cons (s : State) (w : Word × Word) (writes : List (Word × Word)) :
    s.writeRegisters (w :: writes) = (s.writeRegister w.1.toNat w.2).writeRegisters writes := rfl

theorem State.writeRegisters_withHost (s : State) (writes : List (Word × Word)) (p : List Input) (a : List Answer) :
    (s.withHost p a).writeRegisters writes = (s.writeRegisters writes).withHost p a := by
  induction writes generalizing s with
  | nil => rfl
  | cons w writes ih => simp only [State.writeRegisters_cons, State.writeRegister_withHost, ih]

/-- A script of host writes to registers makes them in order, one a step, and none is refused. -/
theorem State.after_hostWrites (s : State) (writes : List (Word × Word)) (hreg : ∀ w ∈ writes, RegisterAddress w.1)
    (hreset : s.resetLine = false) (hscript : s.pending = writes.map fun w => hostWr w.1 w.2) :
    s.after writes.length =
      some ((s.writeRegisters writes).withHost [] (List.replicate writes.length .done ++ s.answers)) := by
  induction writes generalizing s with
  | nil =>
    have hself : s.withHost [] s.answers = s := by rw [← List.map_nil, ← hscript, s.withHost_self]
    exact congrArg some hself.symm
  | cons w writes ih =>
    have hstep := step_hostWr_register s w.2 (hreg w List.mem_cons_self) hreset hscript
    have hrest := ih
      ((s.writeRegister w.1.toNat w.2).withHost (writes.map fun w => hostWr w.1 w.2) (.done :: s.answers))
      (fun x hx => hreg x (List.mem_cons_of_mem w hx)) (by simpa using hreset) rfl
    rw [List.length_cons, State.after, hstep]
    simp [hrest, State.writeRegisters_withHost, List.replicate_succ']

/-! ### The configuration writes and STATUS (R22 to R26, R28) -/

theorem State.configWrite_of_idle (s t : State) (h : s.busy = false) : s.configWrite t = t := by
  simp [State.configWrite, h]

theorem State.writeRegister_ctrl (s : State) (v : Word) (h : s.busy = false) :
    s.writeRegister 0x004 v = { s with ctrl := v &&& 0x00000007#32 } := s.configWrite_of_idle _ h

theorem State.writeRegister_plane (s : State) (v : Word) (h : s.busy = false) :
    s.writeRegister 0x008 v = { s.clearAvail with plane := v &&& 0x00000013#32 } := s.configWrite_of_idle _ h

theorem State.writeRegister_width (s : State) (v : Word) (h : s.busy = false) :
    s.writeRegister 0x00C v = { s.clearAvail with width := v &&& 0x0000FFFF#32 } := s.configWrite_of_idle _ h

theorem State.writeRegister_height (s : State) (v : Word) (h : s.busy = false) :
    s.writeRegister 0x010 v = { s.clearAvail with height := v &&& 0x0000FFFF#32 } := s.configWrite_of_idle _ h

theorem State.writeRegister_geom (s : State) (v : Word) (h : s.busy = false) :
    s.writeRegister 0x014 v = { s with geom := v } := s.configWrite_of_idle _ h

/-- Clearing DONE, ERR and DROP together clears CAUSE and ERRPOS too (R28, R298). -/
theorem State.writeRegister_status_clearAll (s : State) :
    s.writeRegister 0x01C 0xE#32 = { s with errpos := 0#32, status := ⟨false, false, false, .none⟩ } := by
  simp [State.writeRegister, State.writeStatus, State.clearError]

theorem State.statusWord_eq_zero (s : State) (hidle : s.busy = false)
    (hstatus : s.status = ⟨false, false, false, .none⟩) : s.statusWord = 0#32 := by
  simp only [State.statusWord, hidle, hstatus]
  rfl

/-! ### The software re-initialisation (R321) -/

/-- The six writes of R321, each an address and a value. -/
def reinitWrites : List (Word × Word) :=
  [(0x01C#32, 0xE#32), (0x004#32, 0#32), (0x008#32, 0#32), (0x00C#32, 0#32), (0x010#32, 0#32), (0x014#32, 0#32)]

theorem hostReinit_eq_map : hostReinit = reinitWrites.map fun w => hostWr w.1 w.2 := rfl

theorem reinitWrites_registerAddress : ∀ w ∈ reinitWrites, RegisterAddress w.1 := by
  simp [reinitWrites, RegisterAddress]

/-- What the six writes leave: STATUS, ERRPOS and the configuration 0, AVAIL cleared, all else kept. -/
theorem State.writeRegisters_reinit (s : State) (h : s.busy = false) :
    s.writeRegisters reinitWrites =
      { s with
        ctrl := 0#32, plane := 0#32, width := 0#32, height := 0#32, geom := 0#32, errpos := 0#32
        status := ⟨false, false, false, .none⟩
        mem := { s.mem with avail := [] } } := by
  have hphase : s.phase = .idle := by simpa [State.busy] using h
  simp [reinitWrites, State.writeRegister_status_clearAll, State.writeRegister_ctrl, State.writeRegister_plane,
    State.writeRegister_width, State.writeRegister_height, State.writeRegister_geom, State.clearAvail, State.busy,
    hphase]

end Sys2Proof.Machine

namespace Sys2Proof.Proofs

open Sys2Proof.Machine

/-- Settles O37: the script's six steps are six register writes, and those leave the state of R321. -/
theorem softwareReinitialisation : Obligations.SoftwareReinitialisation := by
  intro s hidle hreset hscript
  have hrun := s.after_hostWrites reinitWrites reinitWrites_registerAddress hreset (hscript.trans hostReinit_eq_map)
  rw [s.writeRegisters_reinit hidle] at hrun
  exact ⟨_, hrun, rfl, rfl, rfl, rfl, rfl, State.statusWord_eq_zero _ hidle rfl, rfl,
    rfl, rfl, ⟨rfl, rfl, rfl, rfl⟩, rfl⟩

end Sys2Proof.Proofs
end

section
/-! SUPPORT. The fields of a command word and what the decoder and the encoder do on them (rules R100 to R104, R109),
for the statements of 30_encoding.md. -/

namespace Sys2Proof

open Sys2Proof.Laws

/-! ### The fields of a word as numbers (R100, R101) -/

theorem opcField_eq (w : Word) : opcField w = w.toNat % 16 := by
  simp [opcField, BitVec.extractLsb'_toNat]

theorem rsvField_eq (w : Word) : rsvField w = w.toNat / 16 % 16 := by
  simp [rsvField, BitVec.extractLsb'_toNat, Nat.shiftRight_eq_div_pow]

theorem bcField_eq (w : Word) : bcField w = w.toNat / 256 % 4096 := by
  simp [bcField, BitVec.extractLsb'_toNat, Nat.shiftRight_eq_div_pow]

theorem brField_eq (w : Word) : brField w = w.toNat / 1048576 := by
  have := w.isLt
  simp only [brField, BitVec.extractLsb'_toNat, Nat.shiftRight_eq_div_pow]
  omega

theorem opcField_commandWord (br bc opc : Nat) : opcField (commandWord br bc opc) = opc % 16 := by
  rw [opcField_eq, commandWord_toNat]
  omega

theorem rsvField_commandWord (br bc opc : Nat) : rsvField (commandWord br bc opc) = 0 := by
  rw [rsvField_eq, commandWord_toNat]
  omega

theorem bcField_commandWord (br bc opc : Nat) : bcField (commandWord br bc opc) = bc % 4096 := by
  rw [bcField_eq, commandWord_toNat]
  omega

theorem brField_commandWord (br bc opc : Nat) : brField (commandWord br bc opc) = br % 4096 := by
  rw [brField_eq, commandWord_toNat]
  omega

/-- Every block operand a word can hold is one the assembler accepts. -/
theorem bcField_lt (w : Word) : bcField w < 4096 := by
  rw [bcField_eq]
  omega

theorem brField_lt (w : Word) : brField w < 4096 := by
  have := w.isLt
  rw [brField_eq]
  omega

/-- A word with RSV = 0 is the command word of its other three fields (R100). -/
theorem commandWord_fields {w : Word} (h : rsvField w = 0) :
    commandWord (brField w) (bcField w) (opcField w) = w := by
  have := w.isLt
  rw [rsvField_eq] at h
  refine BitVec.eq_of_toNat_eq ?_
  rw [commandWord_toNat, brField_eq, bcField_eq, opcField_eq]
  omega

/-! ### The decoder and the encoder (R102, R103, R109) -/

/-- A block operand that fits its field is what the field holds. -/
theorem mod_of_fitsField {v : Nat} (h : fitsField v = true) : v % 4096 = v :=
  Nat.mod_eq_of_lt (by simpa [fitsField] using h)

theorem decode_encode (i : Instr) (h : i.wellFormed = true) : decode (encode i) = .ok i := by
  have operands : ∀ br bc, (fitsField br && fitsField bc) = true → br % 4096 = br ∧ bc % 4096 = bc := by
    intro br bc hfit
    rw [Bool.and_eq_true] at hfit
    exact ⟨mod_of_fitsField hfit.1, mod_of_fitsField hfit.2⟩
  cases i with
  | nop => decide
  | clrav => decide
  | encp => decide
  | decp => decide
  | encb br bc | decb br bc | fdctb br bc | idctb br bc =>
    obtain ⟨hbr, hbc⟩ := operands br bc h
    simp [encode, decode, opcField_commandWord, rsvField_commandWord, bcField_commandWord, brField_commandWord, hbr, hbc]

/-- A command without operands decodes only where both operand fields are 0 (R103 (c)). -/
theorem noOperands_eq_ok_iff (w : Word) (i j : Instr) :
    noOperands w i = .ok j ↔ (brField w = 0 ∧ bcField w = 0) ∧ i = j := by
  unfold noOperands
  split <;> simp [*]

/-- What a word that decodes is: RSV = 0, and the row of its OPC (R102). -/
theorem encode_of_decode {w : Word} {i : Instr} (h : decode w = .ok i) : encode i = w ∧ i.wellFormed = true := by
  unfold decode at h
  split at h
  · simp at h
  · split at h
    · simp at h
    · rename_i hrsv
      have hw := commandWord_fields (not_not.1 hrsv)
      have hfit : (fitsField (brField w) && fitsField (bcField w)) = true := by
        simp [fitsField, brField_lt, bcField_lt]
      split at h
      case h_9 => simp at h
      all_goals rename_i hopc; rw [hopc] at hw
      all_goals simp only [noOperands_eq_ok_iff, Except.ok.injEq] at h
      case h_3 | h_4 | h_7 | h_8 => exact h ▸ ⟨hw, hfit⟩
      all_goals
        obtain ⟨⟨hbr, hbc⟩, rfl⟩ := h
        rw [hbr, hbc] at hw
        exact ⟨hw, rfl⟩

/-- The illegal words, by their fields (R103). -/
theorem decode_error_iff (w : Word) :
    (∃ e, decode w = .error e) ↔ 8 ≤ opcField w ∨ rsvField w ≠ 0 ∨
      ((opcField w = 0 ∨ opcField w = 1 ∨ opcField w = 4 ∨ opcField w = 5) ∧ ¬(brField w = 0 ∧ bcField w = 0)) := by
  by_cases hopc : 8 ≤ opcField w
  · simp [decode, hopc]
  · by_cases hrsv : rsvField w = 0
    · generalize hn : opcField w = n at hopc
      have hlt : n < 8 := not_le.1 hopc
      by_cases hoperands : brField w = 0 ∧ bcField w = 0 <;> interval_cases n <;>
        simp [decode, noOperands, hn, hrsv, hoperands]
    · simp [decode, hopc, hrsv]

/-- The same, by the digits of the word as a number. -/
theorem decode_error_iff_toNat (w : Word) :
    (∃ e, decode w = .error e) ↔
      (8 ≤ w.toNat % 16 ∨ w.toNat / 16 % 16 ≠ 0 ∨
        ((w.toNat % 16 = 0 ∨ w.toNat % 16 = 1 ∨ w.toNat % 16 = 4 ∨ w.toNat % 16 = 5) ∧ w.toNat / 256 ≠ 0)) := by
  have hoperands : (brField w = 0 ∧ bcField w = 0) ↔ w.toNat / 256 = 0 := by
    rw [brField_eq, bcField_eq]
    omega
  rw [decode_error_iff, hoperands, opcField_eq, rsvField_eq]

end Sys2Proof

namespace Sys2Proof.Proofs

/-- Settles O1: each command's word has the operands, RSV = 0 and the OPC that its row of the decoder reads. -/
theorem decodeOfEncodeIsTheCommand : Obligations.DecodeOfEncodeIsTheCommand := decode_encode

/-- Settles O2: a word that decodes is made of its own fields, and decoding recovers every command from its word. -/
theorem encodeOfDecodeIsTheWord : Obligations.EncodeOfDecodeIsTheWord := by
  intro w i h
  obtain ⟨hword, hwf⟩ := encode_of_decode h
  refine ⟨hword, hwf, fun j hj hjw => ?_⟩
  have hdecode := decode_encode j hj
  rw [hjw, h] at hdecode
  exact (Except.ok.inj hdecode).symm

/-- Settles O3, from the decoder's branches. -/
theorem illegalWordsAreThoseListed : Obligations.IllegalWordsAreThoseListed := decode_error_iff_toNat

/-- Settles O4: the decoder evaluates on each of the eight words. -/
theorem writtenWordsDecode : Obligations.WrittenWordsDecode := by
  unfold Obligations.WrittenWordsDecode
  decide

end Sys2Proof.Proofs
end

section
/-! SUPPORT. What one step is, by the next event of the script (rules R17, R81, R320), what the engine's turn is, by the
phase and LASTCMD (R103, R132, R343), and the life of a command (R130, R281), for the statements of 00_scope.md and
40_control.md. -/

namespace Sys2Proof.Machine

/-! ### A step, by the next event of the script -/

theorem step_of_empty (s : State) (h : s.pending = []) : step s = s.engineTurn := by
  simp [step, h]

theorem step_of_engine (s : State) {rest : List Input} (h : s.pending = .engine :: rest) :
    step s = State.engineTurn { s with pending := rest } := by
  simp [step, h]

theorem step_of_bus (s : State) {txn : Txn} {rest : List Input} (hreset : s.resetLine = false)
    (h : s.pending = .bus txn :: rest) :
    step s = .next { (State.transact { s with pending := rest } txn).2 with
      answers := (State.transact { s with pending := rest } txn).1 :: s.answers } := by
  simp [step, h, State.busTurn, hreset]

theorem step_of_bus_in_reset (s : State) {txn : Txn} {rest : List Input} (hreset : s.resetLine = true)
    (h : s.pending = .bus txn :: rest) : step s = .refused .busDuringReset := by
  simp [step, h, State.busTurn, hreset]

theorem step_of_reset (s : State) {asserted : Bool} {rest : List Input} (h : s.pending = .reset asserted :: rest) :
    step s = .next (if asserted then State.assertReset { s with pending := rest }
      else State.releaseReset { s with pending := rest }) := by
  simp [step, h, State.resetTurn]

/-! ### The engine's turn -/

theorem State.busy_eq_true_iff (s : State) : s.busy = true ↔ s.phase ≠ .idle := by
  simp [State.busy]

theorem State.busy_eq_false_iff (s : State) : s.busy = false ↔ s.phase = .idle := by
  simp [State.busy]

theorem State.engineTurn_idle (s : State) (h : s.phase = .idle ∨ s.resetLine = true) : s.engineTurn = .next s := by
  rcases h with h | h <;> simp [State.engineTurn, State.busy, h]

theorem State.engineTurn_runs (s : State) {i : Instr} (hreset : s.resetLine = false) (hbusy : s.busy = true)
    (hdecode : decode s.lastCmd = .ok i) : s.engineTurn = exec i s := by
  simp [State.engineTurn, hreset, hbusy, hdecode]

theorem State.engineTurn_illegal (s : State) {e : DecodeError} (hreset : s.resetLine = false) (hbusy : s.busy = true)
    (hdecode : decode s.lastCmd = .error e) : s.engineTurn = .next (s.raise ⟨.badCmd, 0, 0⟩) := by
  simp [State.engineTurn, hreset, hbusy, hdecode]

/-! ### Acceptance and loading (R130; log entry 8) -/

theorem State.issue_of_busy_or_err (s : State) (w : Word) (h : s.busy = true ∨ s.status.err = true) :
    s.issue w = s.dropWrite := by
  rcases h with h | h <;> simp [State.issue, h]

theorem State.issue_accepted (s : State) (w : Word) (hbusy : s.busy = false) (herr : s.status.err = false) :
    s.issue w = s.accept w := by
  simp [State.issue, hbusy, herr]

/-- A 32-bit word is the table word of its own number. -/
theorem tableWord_toNat (w : Word) : tableWord 32 w.toNat = w := by
  have := w.isLt
  refine BitVec.eq_of_toNat_eq ?_
  simp only [tableWord, BitVec.toNat_ofNat]
  omega

/-- The state that loading a word leaves, its script aside: the word accepted, with the reset input released and no
error (log entry 8). -/
def State.loaded (s : State) (w : Word) : State := ({ s with resetLine := false } : State).clearError.accept w

theorem State.withFetchWord_eq_loaded (s : State) (w : Word) :
    s.withFetchWord 32 w.toNat = { s.loaded w with pending := .engine :: s.pending } := by
  rw [State.withFetchWord, tableWord_toNat]
  rfl

theorem State.loaded_busy (s : State) (w : Word) : (s.loaded w).busy = true := rfl

/-- The step after loading a word is the engine's turn on it. -/
theorem step_withFetchWord (s : State) (w : Word) : step (s.withFetchWord 32 w.toNat) = (s.loaded w).engineTurn := by
  rw [s.withFetchWord_eq_loaded]
  exact step_of_engine _ rfl

end Sys2Proof.Machine

namespace Sys2Proof.Proofs

open Sys2Proof.Machine

/-- Settles O5: the engine's turn is the next event of both scripts, and it depends on the phase, the reset input and
LASTCMD alone. -/
theorem stepRunsTheDecodedCommand : Obligations.StepRunsTheDecodedCommand := by
  refine ⟨fun s i hreset hphase hdecode => ?_, fun s h => ?_⟩
  · have hbusy := s.busy_eq_true_iff.2 hphase
    exact ⟨fun hp => (step_of_empty s hp).trans (s.engineTurn_runs hreset hbusy hdecode),
      fun rest hp => (step_of_engine s hp).trans (State.engineTurn_runs _ hreset hbusy hdecode)⟩
  · exact ⟨fun hp => (step_of_empty s hp).trans (s.engineTurn_idle h),
      fun rest hp => (step_of_engine s hp).trans (State.engineTurn_idle _ h)⟩

/-- Settles O6: loading leaves the accepted word, whose decoding is the command (O1), with the engine's turn next. -/
theorem fetchedWordRunsNext : Obligations.FetchedWordRunsNext := by
  intro s i hwf
  have hturn : (s.loaded (encode i)).engineTurn = exec i (s.loaded (encode i)) :=
    State.engineTurn_runs _ rfl (s.loaded_busy _) (decode_encode i hwf)
  exact ⟨s.loaded (encode i), (step_withFetchWord s _).trans hturn, rfl, rfl, rfl, rfl, rfl, rfl, rfl⟩

/-- Settles O7: the transaction is a register write to CMD, which is the command issue of R130. -/
theorem commandIssueIsAcceptedOrDropped : Obligations.CommandIssueIsAcceptedOrDropped := by
  intro s w rest hreset hscript
  have hstep : step s = .next ((s.issue w).withHost rest (.done :: s.answers)) :=
    step_hostWr_register s w (addr := 0x018#32) (by decide) hreset hscript
  refine ⟨fun h => ?_, fun hbusy herr => ?_⟩
  · rw [hstep, s.issue_of_busy_or_err w h]
    rfl
  · rw [hstep, s.issue_accepted w hbusy herr]
    rfl

/-- Settles O8: the listed words are those that do not decode (O3), and their one outcome is BAD_CMD. -/
theorem illegalWordEndsWithBadCmd : Obligations.IllegalWordEndsWithBadCmd := by
  intro s rest hreset hbusy hscript hword
  obtain ⟨e, he⟩ := (decode_error_iff_toNat s.lastCmd).2 hword
  exact (step_of_engine s hscript).trans (State.engineTurn_illegal _ hreset hbusy he)

end Sys2Proof.Proofs
end

section
/-! SUPPORT. What each list of checks reports, in the words of the rules (R132, R134, R137 to R142, R167, R211, R212, R241,
R242, R295), and the error completion (R281, R282, R297), for the statements of 60_exceptions.md. -/

namespace Sys2Proof.Machine

open Sys2Proof.Safety Sys2Proof.Laws

/-! ### The first failing check as a chain of cases -/

/-- A command with checks ends with the first failure, or goes on. -/
theorem State.checked_eq (s ok : State) (checks : List (Bool × Failure)) :
    s.checked checks ok = .next ((firstFailure checks).elim ok s.raise) := by
  unfold State.checked
  cases firstFailure checks <;> rfl

section
variable {α β : Type} (c : Prop) [Decidable c] (f : α) (o p : Option α)

theorem ite_some_or : (if c then some f else o).or p = if c then some f else o.or p := by
  split <;> rfl

theorem ite_some_elim (b : β) (g : α → β) : (if c then some f else o).elim b g = if c then g f else o.elim b g := by
  split <;> rfl

end

/-- What a list of checks reports stands in the list. -/
theorem firstFailure_mem {checks : List (Bool × Failure)} {f : Failure} (h : firstFailure checks = some f) :
    ∃ c ∈ checks, c.2 = f := by
  induction checks with
  | nil => simp at h
  | cons c rest ih =>
    obtain ⟨fails, g⟩ := c
    cases fails with
    | true => exact ⟨_, List.mem_cons_self, Option.some.inj h⟩
    | false =>
      obtain ⟨c, hc, hf⟩ := ih h
      exact ⟨c, List.mem_cons_of_mem _ hc, hf⟩

/-- A list of checks that all report `f`, and that passes exactly when `P` holds. -/
theorem firstFailure_of_pass_iff {checks : List (Bool × Failure)} {f : Failure} {P : Prop} [Decidable P]
    (hf : ∀ c ∈ checks, c.2 = f) (h : firstFailure checks = none ↔ P) :
    firstFailure checks = if ¬P then some f else none := by
  rw [if_congr (not_congr h.symm) rfl rfl]
  cases hg : firstFailure checks with
  | none => rfl
  | some g =>
    obtain ⟨c, hc, rfl⟩ := firstFailure_mem hg
    simp [hf c hc]

theorem firstFailure_configChecks (s : State) :
    firstFailure s.configChecks =
      if s.snap.kind = 3 then some ⟨.cfg, 0, 0⟩
      else if ¬ConfigLegal s.snap s.capacity then some ⟨.shape, 0, 0⟩
      else none := by
  by_cases hkind : s.snap.kind = 3
  · simp [State.configChecks, hkind]
  · rw [if_neg hkind, if_congr (not_congr (configChecks_pass s).symm) rfl rfl]
    cases hshape : s.snap.shapeLegal s.capacity <;> simp [State.configChecks, hkind, hshape]

theorem firstFailure_geometryChecks (s : State) :
    firstFailure s.geometryChecks = if ¬GeometryRecorded s.snap then some ⟨.geometry, 0, 0⟩ else none :=
  firstFailure_of_pass_iff (by simp [State.geometryChecks]) (geometryChecks_pass s)

theorem firstFailure_rangeChecks (s : State) (br bc : Nat) :
    firstFailure (s.rangeChecks br bc) = if ¬InGrid s.snap br bc then some ⟨.blockRange, br, bc⟩ else none :=
  firstFailure_of_pass_iff (by simp [State.rangeChecks]) (rangeChecks_pass s br bc)

/-- REWRITE comes first, and each other failure of the causal check is CAUSALITY (R138). -/
theorem firstFailure_causalChecks (s : State) (br bc : Nat) :
    firstFailure (s.causalChecks br bc) =
      if s.availBit (s.snap.blockIndex br bc) = true then some ⟨.rewrite, br, bc⟩
      else if ¬CausallyReady s br bc then some ⟨.causality, br, bc⟩
      else none := by
  by_cases hrewrite : s.availBit (s.snap.blockIndex br bc) = true
  · simp [State.causalChecks, hrewrite]
  · have hrest : firstFailure (s.causalChecks br bc) = firstFailure (s.causalChecks br bc).tail := by
      simp [State.causalChecks, hrewrite]
    rw [if_neg hrewrite, hrest]
    exact firstFailure_of_pass_iff (by simp [State.causalChecks]) (hrest ▸ causalChecks_pass s br bc)

theorem firstFailure_sampleChecks (s : State) (br bc : Nat) :
    firstFailure (s.sampleChecks br bc) = if ¬SamplesInRange s br bc then some ⟨.sampleRange, br, bc⟩ else none :=
  firstFailure_of_pass_iff (by simp [State.sampleChecks]) (sampleChecks_pass s br bc)

theorem firstFailure_resChecks (s : State) (br bc : Nat) :
    firstFailure (s.resChecks br bc) = if ¬ResidualsInRange s br bc then some ⟨.resRange, br, bc⟩ else none :=
  firstFailure_of_pass_iff (by simp [State.resChecks]) (resChecks_pass s br bc)

theorem firstFailure_coefChecks (s : State) (br bc : Nat) :
    firstFailure (s.coefChecks br bc) = if ¬CoefficientsInRange s br bc then some ⟨.coefRange, br, bc⟩ else none :=
  firstFailure_of_pass_iff (by simp [State.coefChecks]) (coefChecks_pass s br bc)

theorem firstFailure_modeChecks (s : State) (br bc : Nat) :
    firstFailure (s.modeChecks br bc) = if ¬StoredModeAllowed s br bc then some ⟨.badMode, br, bc⟩ else none :=
  firstFailure_of_pass_iff (by simp [State.modeChecks]) (modeChecks_pass s br bc)

/-! ### The commands as chains of checks (R132, R295) -/

theorem exec_encb_eq (s : State) (br bc : Nat) :
    exec (.encb br bc) s = .next
      (if s.snap.kind = 3 then s.raise ⟨.cfg, 0, 0⟩
      else if ¬ConfigLegal s.snap s.capacity then s.raise ⟨.shape, 0, 0⟩
      else if ¬InGrid s.snap br bc then s.raise ⟨.blockRange, br, bc⟩
      else if s.availBit (s.snap.blockIndex br bc) = true then s.raise ⟨.rewrite, br, bc⟩
      else if ¬CausallyReady s br bc then s.raise ⟨.causality, br, bc⟩
      else if ¬SamplesInRange s br bc then s.raise ⟨.sampleRange, br, bc⟩
      else (s.encodeBlock br bc).complete) := by
  simp only [exec, execEncb, State.checked_eq, firstFailure_append, firstFailure_configChecks,
    firstFailure_rangeChecks, firstFailure_causalChecks, firstFailure_sampleChecks, ite_some_or, ite_some_elim,
    Option.none_or, Option.elim_none]

theorem exec_decb_eq (s : State) (br bc : Nat) :
    exec (.decb br bc) s = .next
      (if s.snap.kind = 3 then s.raise ⟨.cfg, 0, 0⟩
      else if ¬ConfigLegal s.snap s.capacity then s.raise ⟨.shape, 0, 0⟩
      else if ¬GeometryRecorded s.snap then s.raise ⟨.geometry, 0, 0⟩
      else if ¬InGrid s.snap br bc then s.raise ⟨.blockRange, br, bc⟩
      else if s.availBit (s.snap.blockIndex br bc) = true then s.raise ⟨.rewrite, br, bc⟩
      else if ¬CausallyReady s br bc then s.raise ⟨.causality, br, bc⟩
      else if ¬StoredModeAllowed s br bc then s.raise ⟨.badMode, br, bc⟩
      else if ¬CoefficientsInRange s br bc then s.raise ⟨.coefRange, br, bc⟩
      else (s.decodeBlock br bc).complete) := by
  simp only [exec, execDecb, State.checked_eq, firstFailure_append, firstFailure_configChecks,
    firstFailure_geometryChecks, firstFailure_rangeChecks, firstFailure_causalChecks, firstFailure_modeChecks,
    firstFailure_coefChecks, ite_some_or, ite_some_elim, Option.none_or, Option.elim_none]

theorem exec_fdctb_eq (s : State) (br bc : Nat) :
    exec (.fdctb br bc) s = .next
      (if s.snap.kind = 3 then s.raise ⟨.cfg, 0, 0⟩
      else if ¬ConfigLegal s.snap s.capacity then s.raise ⟨.shape, 0, 0⟩
      else if ¬InGrid s.snap br bc then s.raise ⟨.blockRange, br, bc⟩
      else if ¬ResidualsInRange s br bc then s.raise ⟨.resRange, br, bc⟩
      else (s.forwardBlock br bc).complete) := by
  simp only [exec, execFdctb, State.checked_eq, firstFailure_append, firstFailure_configChecks,
    firstFailure_rangeChecks, firstFailure_resChecks, ite_some_or, ite_some_elim, Option.none_or, Option.elim_none]

theorem exec_idctb_eq (s : State) (br bc : Nat) :
    exec (.idctb br bc) s = .next
      (if s.snap.kind = 3 then s.raise ⟨.cfg, 0, 0⟩
      else if ¬ConfigLegal s.snap s.capacity then s.raise ⟨.shape, 0, 0⟩
      else if ¬InGrid s.snap br bc then s.raise ⟨.blockRange, br, bc⟩
      else if ¬CoefficientsInRange s br bc then s.raise ⟨.coefRange, br, bc⟩
      else (s.inverseBlock br bc).complete) := by
  simp only [exec, execIdctb, State.checked_eq, firstFailure_append, firstFailure_configChecks,
    firstFailure_rangeChecks, firstFailure_coefChecks, ite_some_or, ite_some_elim, Option.none_or, Option.elim_none]

/-! ### The stages of a sweep (R247, R249) -/

section
variable (s : State) (checks : List (Bool × Failure)) (content : Nat → Nat → List (Bool × Failure))
  (block : Nat → Nat → State)

theorem State.sweep_start (h : s.phase = .start) :
    s.sweep checks content block = s.checked checks { s with phase := .validate 0 0 } := by
  simp [State.sweep, h]

theorem State.sweep_validate {br bc : Nat} (h : s.phase = .validate br bc) :
    s.sweep checks content block = s.checked (content br bc) { s with phase := s.snap.afterValidate br bc } := by
  simp [State.sweep, h]

theorem State.sweep_clear (h : s.phase = .clear) :
    s.sweep checks content block = .next { s.clearAvail with phase := .process 0 0 } := by
  simp [State.sweep, h]

theorem State.sweep_process {br bc : Nat} (h : s.phase = .process br bc) :
    s.sweep checks content block =
      s.checked (s.causalChecks br bc ++ content br bc) ((block br bc).afterProcess br bc) := by
  simp [State.sweep, h]

end

theorem exec_encp_start (s : State) (h : s.phase = .start) :
    exec .encp s = .next
      (if s.snap.kind = 3 then s.raise ⟨.cfg, 0, 0⟩
      else if ¬ConfigLegal s.snap s.capacity then s.raise ⟨.shape, 0, 0⟩
      else { s with phase := .validate 0 0 }) := by
  simp only [exec, execEncp, s.sweep_start _ _ _ h, State.checked_eq, firstFailure_configChecks, ite_some_elim,
    Option.elim_none]

theorem exec_decp_start (s : State) (h : s.phase = .start) :
    exec .decp s = .next
      (if s.snap.kind = 3 then s.raise ⟨.cfg, 0, 0⟩
      else if ¬ConfigLegal s.snap s.capacity then s.raise ⟨.shape, 0, 0⟩
      else if ¬GeometryRecorded s.snap then s.raise ⟨.geometry, 0, 0⟩
      else { s with phase := .validate 0 0 }) := by
  simp only [exec, execDecp, s.sweep_start _ _ _ h, State.checked_eq, firstFailure_append, firstFailure_configChecks,
    firstFailure_geometryChecks, ite_some_or, ite_some_elim, Option.none_or, Option.elim_none]

/-! ### The error completion (R281, R297) -/

theorem positionWord_toNat (br bc : Nat) : (positionWord br bc).toNat = 65536 * (br % 65536) + bc % 65536 := by
  simp only [positionWord, toNat_append_add, BitVec.toNat_ofNat]
  omega

/-- STATUS as a number, by its fields (R28). -/
theorem State.statusWord_toNat (s : State) :
    s.statusWord.toNat = (if s.busy then 1 else 0) + (if s.status.done then 2 else 0) +
      (if s.status.err then 4 else 0) + (if s.status.drop then 8 else 0) + 256 * s.status.cause.code.toNat := by
  simp only [State.statusWord, toNat_append_add, BitVec.toNat_ofBool, BitVec.toNat_ofNat]
  cases s.busy <;> cases s.status.done <;> cases s.status.err <;> cases s.status.drop <;> simp <;> omega

/-- STATUS after an error: ERR, the cause, and DROP as it was (R281). -/
theorem State.raise_statusWord_toNat (s : State) (f : Failure) :
    (s.raise f).statusWord.toNat = 256 * f.cause.code.toNat + 4 + (if s.status.drop then 8 else 0) := by
  rw [State.statusWord_toNat]
  cases hdrop : s.status.drop <;> simp [State.busy, hdrop] <;> omega

theorem State.raise_selectionKept (s : State) (f : Failure) : SelectionKept s (s.raise f) := ⟨rfl, rfl, rfl, rfl⟩

theorem State.raise_hostSideKept (s : State) (f : Failure) : HostSideKept s (s.raise f) :=
  ⟨rfl, rfl, rfl, rfl, rfl, rfl, rfl, rfl, rfl, rfl, rfl, rfl⟩

@[simp] theorem State.afterProcess_err (s : State) (br bc : Nat) :
    (s.afterProcess br bc).status.err = s.status.err := by
  rcases s.afterProcess_cases br bc with ⟨-, h⟩ | ⟨br', bc', -, h⟩ <;> rw [h]
  rfl

/-- Every check of the list names a cause (R282, R296). -/
def NamedCauses (checks : List (Bool × Failure)) : Prop := ∀ c ∈ checks, c.2.cause ≠ .none

@[simp] theorem namedCauses_nil : NamedCauses [] := fun _ h => absurd h List.not_mem_nil

@[simp] theorem namedCauses_cons (c : Bool × Failure) (checks : List (Bool × Failure)) :
    NamedCauses (c :: checks) ↔ c.2.cause ≠ .none ∧ NamedCauses checks := List.forall_mem_cons

@[simp] theorem namedCauses_append (a b : List (Bool × Failure)) :
    NamedCauses (a ++ b) ↔ NamedCauses a ∧ NamedCauses b := List.forall_mem_append

theorem State.checked_err {s ok t : State} {checks : List (Bool × Failure)} (hcauses : NamedCauses checks)
    (hok : ok.status.err = s.status.err) (h : s.checked checks ok = .next t) :
    (∃ f, f.cause ≠ .none ∧ t = s.raise f) ∨ t.status.err = s.status.err := by
  rcases s.checked_cases ok t checks h with ⟨f, hf, rfl⟩ | ⟨-, rfl⟩
  · obtain ⟨c, hc, rfl⟩ := firstFailure_mem hf
    exact .inl ⟨c.2, hcauses c hc, rfl⟩
  · exact .inr hok

theorem State.sweep_err {s t : State} {checks : List (Bool × Failure)} {content : Nat → Nat → List (Bool × Failure)}
    {block : Nat → Nat → State} (hcauses : NamedCauses checks) (hcontent : ∀ br bc, NamedCauses (content br bc))
    (hblock : ∀ br bc, (block br bc).status = s.status) (h : s.sweep checks content block = .next t) :
    (∃ f, f.cause ≠ .none ∧ t = s.raise f) ∨ t.status.err = s.status.err := by
  unfold State.sweep at h
  split at h
  · exact State.checked_err hcauses (by rfl) h
  · exact State.checked_err hcauses (by rfl) h
  · exact State.checked_err (hcontent _ _) (by rfl) h
  · cases h
    exact .inr rfl
  · rename_i br bc _
    exact State.checked_err (by simp [State.causalChecks, hcontent]) (by simp [hblock]) h

/-- A command step leaves ERR as it was, unless it ends with the error completion, which names a cause. -/
theorem exec_err (i : Instr) (s t : State) (h : exec i s = .next t) :
    (∃ f, f.cause ≠ .none ∧ t = s.raise f) ∨ t.status.err = s.status.err := by
  cases i with
  | nop | clrav =>
    cases h
    exact .inr rfl
  | encb br bc =>
    refine State.checked_err ?_ (by rfl) h
    simp [State.configChecks, State.rangeChecks, State.causalChecks, State.sampleChecks]
  | decb br bc =>
    refine State.checked_err ?_ (by rfl) h
    simp [State.configChecks, State.geometryChecks, State.rangeChecks, State.causalChecks, State.modeChecks,
      State.coefChecks]
  | fdctb br bc =>
    refine State.checked_err ?_ (by rfl) h
    simp [State.configChecks, State.rangeChecks, State.resChecks]
  | idctb br bc =>
    refine State.checked_err ?_ (by rfl) h
    simp [State.configChecks, State.rangeChecks, State.coefChecks]
  | encp =>
    refine State.sweep_err (checks := s.configChecks) (content := s.sampleChecks) (block := s.encodeBlock) ?_
      (fun _ _ => ?_) (fun _ _ => rfl) h
    · simp [State.configChecks]
    · simp [State.sampleChecks]
  | decp =>
    refine State.sweep_err (checks := s.configChecks ++ s.geometryChecks)
      (content := fun br bc => s.modeChecks br bc ++ s.coefChecks br bc) (block := s.decodeBlock) ?_
      (fun _ _ => ?_) (fun _ _ => rfl) h
    · simp [State.configChecks, State.geometryChecks]
    · simp [State.modeChecks, State.coefChecks]

end Sys2Proof.Machine

namespace Sys2Proof.Proofs

open Sys2Proof.Machine

/-- Settles O10, by the two commands' one step. -/
theorem nopAndClravOnlyComplete : Obligations.NopAndClravOnlyComplete := fun s =>
  ⟨rfl, s.clearAvail.complete, rfl, fun _ => rfl, rfl, ⟨rfl, rfl, rfl, rfl, rfl, rfl⟩,
    ⟨rfl, rfl, rfl, rfl, rfl, rfl, rfl, rfl, rfl, rfl, rfl, rfl⟩, ⟨rfl, rfl, rfl, rfl⟩, rfl⟩

/-- Settles O19: the fields of the two words it writes, and the frame of `raise`. -/
theorem errorCompletionWritesStatusErrposNblk : Obligations.ErrorCompletionWritesStatusErrposNblk :=
  ⟨⟨rfl, rfl, rfl, rfl, rfl, rfl, rfl, rfl, rfl, rfl, rfl, rfl⟩, fun s f =>
    ⟨s.raise_statusWord_toNat f, positionWord_toNat f.br f.bc, rfl, rfl, s.raise_selectionKept f, s.raise_hostSideKept f⟩⟩

/-- Settles O20, from what each list of checks reports. -/
theorem blockCommandsCheckInOrder : Obligations.BlockCommandsCheckInOrder := fun s br bc =>
  ⟨exec_encb_eq s br bc, exec_decb_eq s br bc, exec_fdctb_eq s br bc, exec_idctb_eq s br bc⟩

/-- Settles O21: the first stage of both sweeps is the command's checks. -/
theorem sweepsCheckTheConfigurationFirst : Obligations.SweepsCheckTheConfigurationFirst := fun s hstart =>
  ⟨exec_encp_start s hstart, exec_decp_start s hstart⟩

/-- Settles O24: only the error completion turns ERR on. -/
theorem aFailingStepChangesNothingElse : Obligations.AFailingStepChangesNothingElse := by
  intro i s t hexec hbefore hafter
  rcases exec_err i s t hexec with ⟨f, -, rfl⟩ | hkept
  · exact ⟨rfl, s.raise_selectionKept f, s.raise_hostSideKept f, rfl, rfl, rfl⟩
  · simp [hkept, hbefore] at hafter

end Sys2Proof.Proofs
end

section
/-! SUPPORT. What each cell and each selection register holds after a block step and after a completion (rules R170, R171,
R211, R212, R243, R244), when a command makes its block step, and the stages of a sweep whose checks pass (R245 to R249),
for the statements of 41_intra_predictor.md to 43_reconstruction.md. -/

namespace Sys2Proof.Machine

open Sys2Proof.Safety Sys2Proof.Laws

/-! ### The reconstruction sum (R13, R243) -/

theorem Snapshot.smax_cases (c : Snapshot) : c.smax = 255 ∨ c.smax = 1023 := by
  unfold Snapshot.smax Snapshot.depth
  split
  · exact .inr (by norm_num)
  · exact .inl (by norm_num)

theorem Snapshot.smax_nonneg (c : Snapshot) : 0 ≤ c.smax := by
  have := c.smax_cases
  omega

theorem clip_eq_max_min {lo hi : Int} (h : lo ≤ hi) (v : Int) : clip v lo hi = max lo (min hi v) := by
  unfold clip
  split
  · omega
  · split <;> omega

theorem State.reconstruct_at (s : State) (p r : Block) {i j : Nat} (hi : i < s.snap.n) (hj : j < s.snap.n) :
    blockAt (s.reconstruct p r) i j = max 0 (min s.snap.smax (blockAt p i j + blockAt r i j)) :=
  (blockAt_blockOf _ _ hi hj).trans (clip_eq_max_min s.snap.smax_nonneg _)

/-! ### The cells of two blocks (R135) -/

/-- A cell of a block of the grid is not one of another block's. -/
theorem not_inBlock_of_ne (c : Snapshot) {br bc br' bc' i j : Nat} (hbc : bc < c.bcols) (hbc' : bc' < c.bcols)
    (hne : ¬(br = br' ∧ bc = bc')) (hi : i < c.n) (hj : j < c.n) : ¬InBlock c br bc (c.cellIndex br' bc' i j) := by
  rintro ⟨i', hi', j', hj', heq⟩
  obtain ⟨hbr, hbc, -⟩ := cellIndex_inj c hbc' hbc hi hj hi' hj' heq
  exact hne ⟨hbr.symm, hbc.symm⟩

/-! ### A completion leaves the cells (R131) -/

@[simp] theorem State.complete_origCell (s : State) (k : Nat) : s.complete.origCell k = s.origCell k := rfl
@[simp] theorem State.complete_reconCell (s : State) (k : Nat) : s.complete.reconCell k = s.reconCell k := rfl
@[simp] theorem State.complete_resCell (s : State) (k : Nat) : s.complete.resCell k = s.resCell k := rfl
@[simp] theorem State.complete_coefCell (s : State) (k : Nat) : s.complete.coefCell k = s.coefCell k := rfl
@[simp] theorem State.complete_modeCell (s : State) (b : Nat) : s.complete.modeCell b = s.modeCell b := rfl
@[simp] theorem State.complete_availBit (s : State) (b : Nat) : s.complete.availBit b = s.availBit b := rfl

/-- A completion after a block step that left STATUS and ERRPOS is a successful end (R131). -/
theorem State.complete_endedWell {s t : State} (hstatus : t.status = s.status) (herrpos : t.errpos = s.errpos) :
    EndedWell s t.complete := by
  simp [EndedWell, hstatus, herrpos]

/-! ### The cells after an encode block step (R171) -/

section
variable (s : State) {br bc i j : Nat}

theorem State.encodeBlock_origCell (br bc k : Nat) : (s.encodeBlock br bc).origCell k = s.origCell k := rfl

theorem State.encodeBlock_resCell (hbc : bc < s.snap.bcols) (hi : i < s.snap.n) (hj : j < s.snap.n) :
    (s.encodeBlock br bc).resCell (s.snap.cellIndex br bc i j) =
      BitVec.ofInt 32 (blockAt (s.encodeResidual br bc) i j) := by
  simp [State.resCell, cellGet_storeBlock s.snap _ _ hbc hi hj]

theorem State.encodeBlock_coefCell (hbc : bc < s.snap.bcols) (hi : i < s.snap.n) (hj : j < s.snap.n) :
    (s.encodeBlock br bc).coefCell (s.snap.cellIndex br bc i j) =
      BitVec.ofInt 32 (blockAt (s.encodeCoefficients br bc) i j) := by
  simp [State.coefCell, cellGet_storeBlock s.snap _ _ hbc hi hj]

theorem State.encodeBlock_reconCell (hbc : bc < s.snap.bcols) (hi : i < s.snap.n) (hj : j < s.snap.n) :
    (s.encodeBlock br bc).reconCell (s.snap.cellIndex br bc i j) =
      BitVec.ofInt 16 (blockAt (s.encodeReconstruction br bc) i j) := by
  simp [State.reconCell, cellGet_storeBlock s.snap _ _ hbc hi hj]

theorem State.encodeBlock_resCell_other {k : Nat} (h : ¬InBlock s.snap br bc k) :
    (s.encodeBlock br bc).resCell k = s.resCell k := by
  simp [State.resCell, cellGet_storeBlock_other s.snap _ _ h]

theorem State.encodeBlock_coefCell_other {k : Nat} (h : ¬InBlock s.snap br bc k) :
    (s.encodeBlock br bc).coefCell k = s.coefCell k := by
  simp [State.coefCell, cellGet_storeBlock_other s.snap _ _ h]

theorem State.encodeBlock_reconCell_other {k : Nat} (h : ¬InBlock s.snap br bc k) :
    (s.encodeBlock br bc).reconCell k = s.reconCell k := by
  simp [State.reconCell, cellGet_storeBlock_other s.snap _ _ h]

theorem State.encodeBlock_modeCell (br bc : Nat) :
    (s.encodeBlock br bc).modeCell (s.snap.blockIndex br bc) = (s.selectedMode br bc).tag.setWidth 8 := by
  simp [State.modeCell]

theorem State.encodeBlock_modeCell_other {b : Nat} (h : b ≠ s.snap.blockIndex br bc) :
    (s.encodeBlock br bc).modeCell b = s.modeCell b := by
  simp [State.modeCell, cellGet_cellPut_other _ _ h]

theorem State.encodeBlock_availBit (br bc b : Nat) :
    (s.encodeBlock br bc).availBit b = true ↔ b = s.snap.blockIndex br bc ∨ s.availBit b = true := by
  simp [State.availBit, mem_availPut]

/-! ### The cells after a decode block step (R244) -/

theorem State.decodeBlock_origCell (br bc k : Nat) : (s.decodeBlock br bc).origCell k = s.origCell k := rfl

theorem State.decodeBlock_coefCell (br bc k : Nat) : (s.decodeBlock br bc).coefCell k = s.coefCell k := rfl

theorem State.decodeBlock_modeCell (br bc b : Nat) : (s.decodeBlock br bc).modeCell b = s.modeCell b := rfl

theorem State.decodeBlock_resCell (hbc : bc < s.snap.bcols) (hi : i < s.snap.n) (hj : j < s.snap.n) :
    (s.decodeBlock br bc).resCell (s.snap.cellIndex br bc i j) =
      BitVec.ofInt 32 (blockAt (s.decodeResidual br bc) i j) := by
  simp [State.resCell, cellGet_storeBlock s.snap _ _ hbc hi hj]

theorem State.decodeBlock_reconCell (hbc : bc < s.snap.bcols) (hi : i < s.snap.n) (hj : j < s.snap.n) :
    (s.decodeBlock br bc).reconCell (s.snap.cellIndex br bc i j) =
      BitVec.ofInt 16 (blockAt (s.decodeReconstruction br bc) i j) := by
  simp [State.reconCell, cellGet_storeBlock s.snap _ _ hbc hi hj]

theorem State.decodeBlock_resCell_other {k : Nat} (h : ¬InBlock s.snap br bc k) :
    (s.decodeBlock br bc).resCell k = s.resCell k := by
  simp [State.resCell, cellGet_storeBlock_other s.snap _ _ h]

theorem State.decodeBlock_reconCell_other {k : Nat} (h : ¬InBlock s.snap br bc k) :
    (s.decodeBlock br bc).reconCell k = s.reconCell k := by
  simp [State.reconCell, cellGet_storeBlock_other s.snap _ _ h]

theorem State.decodeBlock_availBit (br bc b : Nat) :
    (s.decodeBlock br bc).availBit b = true ↔ b = s.snap.blockIndex br bc ∨ s.availBit b = true := by
  simp [State.availBit, mem_availPut]

/-! ### The cells after a transform block step (R211, R212) -/

theorem State.forwardBlock_coefCell (hbc : bc < s.snap.bcols) (hi : i < s.snap.n) (hj : j < s.snap.n) :
    (s.forwardBlock br bc).coefCell (s.snap.cellIndex br bc i j) =
      BitVec.ofInt 32 (blockAt (fdct s.snap.n (s.resBlock br bc)) i j) := by
  simp [State.coefCell, cellGet_storeBlock s.snap _ _ hbc hi hj]

theorem State.forwardBlock_coefCell_other {k : Nat} (h : ¬InBlock s.snap br bc k) :
    (s.forwardBlock br bc).coefCell k = s.coefCell k := by
  simp [State.coefCell, cellGet_storeBlock_other s.snap _ _ h]

theorem State.inverseBlock_resCell (hbc : bc < s.snap.bcols) (hi : i < s.snap.n) (hj : j < s.snap.n) :
    (s.inverseBlock br bc).resCell (s.snap.cellIndex br bc i j) =
      BitVec.ofInt 32 (blockAt (idct s.snap.n (s.coefBlock br bc)) i j) := by
  simp [State.resCell, cellGet_storeBlock s.snap _ _ hbc hi hj]

theorem State.inverseBlock_resCell_other {k : Nat} (h : ¬InBlock s.snap br bc k) :
    (s.inverseBlock br bc).resCell k = s.resCell k := by
  simp [State.resCell, cellGet_storeBlock_other s.snap _ _ h]

end

/-- Two bits that are 1 on the same condition are the same. -/
theorem availBit_eq_of_other {s t : State} {b idx : Nat} (hset : t.availBit b = true ↔ b = idx ∨ s.availBit b = true)
    (h : b ≠ idx) : t.availBit b = s.availBit b := by
  rw [Bool.eq_iff_iff, hset, or_iff_right h]

/-! ### The selection registers (R31, R32, R170) -/

theorem modeselWord_toNat (m : PredMode) (br bc : Nat) :
    (modeselWord m (candidates br bc)).toNat = m.tag.toNat + (if 0 < br ∧ 0 < bc then 16 else 0) +
      (if 0 < br then 32 else 0) + (if 0 < bc then 64 else 0) := by
  have hdiagonal : (candidates br bc).contains .diagonal = decide (0 < br ∧ 0 < bc) := by simp [mem_candidates]
  have hvertical : (candidates br bc).contains .vertical = decide (0 < br) := by simp [mem_candidates]
  have hhorizontal : (candidates br bc).contains .horizontal = decide (0 < bc) := by simp [mem_candidates]
  simp only [modeselWord, toNat_append_add, hdiagonal, hvertical, hhorizontal, BitVec.toNat_ofBool, BitVec.toNat_ofNat]
  by_cases hbr : 0 < br <;> by_cases hbc : 0 < bc <;> simp [hbr, hbc] <;> omega

theorem State.metricWord_eq (s : State) (br bc : Nat) (m : PredMode) {P : Prop} [Decidable P]
    (h : m ∈ candidates br bc ↔ P) :
    s.metricWord br bc m = if P then BitVec.ofInt 32 (s.candidateEnergy br bc m) else 0xFFFFFFFF#32 := by
  simp [State.metricWord, h]

/-! ### The block commands whose checks pass (R171, R211, R212, R244) -/

section
variable (s : State) {br bc : Nat} (hlegal : ConfigLegal s.snap s.capacity) (hgrid : InGrid s.snap br bc)
include hlegal hgrid

theorem exec_encb_ready (hready : CausallyReady s br bc) (hsamples : SamplesInRange s br bc) :
    exec (.encb br bc) s = .next (s.encodeBlock br bc).complete := by
  rw [exec_encb_eq, if_neg hlegal.1, if_neg (not_not_intro hlegal), if_neg (not_not_intro hgrid),
    if_neg (Bool.eq_false_iff.1 hready.1), if_neg (not_not_intro hready), if_neg (not_not_intro hsamples)]

theorem exec_decb_ready (hgeometry : GeometryRecorded s.snap) (hready : CausallyReady s br bc)
    (hmode : StoredModeAllowed s br bc) (hcoef : CoefficientsInRange s br bc) :
    exec (.decb br bc) s = .next (s.decodeBlock br bc).complete := by
  rw [exec_decb_eq, if_neg hlegal.1, if_neg (not_not_intro hlegal), if_neg (not_not_intro hgeometry),
    if_neg (not_not_intro hgrid), if_neg (Bool.eq_false_iff.1 hready.1), if_neg (not_not_intro hready),
    if_neg (not_not_intro hmode), if_neg (not_not_intro hcoef)]

theorem exec_fdctb_ready (hres : ResidualsInRange s br bc) :
    exec (.fdctb br bc) s = .next (s.forwardBlock br bc).complete := by
  rw [exec_fdctb_eq, if_neg hlegal.1, if_neg (not_not_intro hlegal), if_neg (not_not_intro hgrid),
    if_neg (not_not_intro hres)]

theorem exec_idctb_ready (hcoef : CoefficientsInRange s br bc) :
    exec (.idctb br bc) s = .next (s.inverseBlock br bc).complete := by
  rw [exec_idctb_eq, if_neg hlegal.1, if_neg (not_not_intro hlegal), if_neg (not_not_intro hgrid),
    if_neg (not_not_intro hcoef)]

end

/-! ### The stages of a sweep whose checks pass (R245 to R249) -/

theorem Snapshot.afterValidate_eq (c : Snapshot) (br bc : Nat) :
    c.afterValidate br bc =
      if bc + 1 < c.bcols then .validate br (bc + 1) else if br + 1 < c.brows then .validate (br + 1) 0 else .clear := by
  unfold Snapshot.afterValidate Snapshot.nextBlock
  by_cases hbc : bc + 1 < c.bcols
  · simp [hbc]
  · by_cases hbr : br + 1 < c.brows <;> simp [hbc, hbr]

theorem State.afterProcess_eq (s : State) (br bc : Nat) :
    s.afterProcess br bc =
      if bc + 1 < s.snap.bcols then { s with phase := .process br (bc + 1) }
      else if br + 1 < s.snap.brows then { s with phase := .process (br + 1) 0 }
      else s.complete := by
  unfold State.afterProcess Snapshot.nextBlock
  by_cases hbc : bc + 1 < s.snap.bcols
  · simp [hbc]
  · by_cases hbr : br + 1 < s.snap.brows <;> simp [hbc, hbr]

section
variable (s : State) {br bc : Nat}

theorem exec_encp_start_legal (hstart : s.phase = .start) (hlegal : ConfigLegal s.snap s.capacity) :
    exec .encp s = .next { s with phase := .validate 0 0 } := by
  rw [exec_encp_start s hstart, if_neg hlegal.1, if_neg (not_not_intro hlegal)]

theorem exec_encp_validate (hphase : s.phase = .validate br bc) (hsamples : SamplesInRange s br bc) :
    exec .encp s = .next { s with phase := s.snap.afterValidate br bc } :=
  (s.sweep_validate _ _ _ hphase).trans (s.checked_pass _ _ ((sampleChecks_pass s br bc).2 hsamples))

theorem exec_encp_clear (hphase : s.phase = .clear) :
    exec .encp s = .next { s.clearAvail with phase := .process 0 0 } := s.sweep_clear _ _ _ hphase

theorem exec_encp_process (hphase : s.phase = .process br bc) (hready : CausallyReady s br bc)
    (hsamples : SamplesInRange s br bc) : exec .encp s = .next ((s.encodeBlock br bc).afterProcess br bc) :=
  (s.sweep_process _ _ _ hphase).trans (s.checked_pass _ _ ((firstFailure_append_none _ _).2
    ⟨(causalChecks_pass s br bc).2 hready, (sampleChecks_pass s br bc).2 hsamples⟩))

theorem exec_decp_start_legal (hstart : s.phase = .start) (hlegal : ConfigLegal s.snap s.capacity)
    (hgeometry : GeometryRecorded s.snap) : exec .decp s = .next { s with phase := .validate 0 0 } := by
  rw [exec_decp_start s hstart, if_neg hlegal.1, if_neg (not_not_intro hlegal), if_neg (not_not_intro hgeometry)]

/-- The content checks of DECP pass exactly when the stored mode is allowed and the coefficients are in range (R246). -/
theorem decodeContent_pass (br bc : Nat) :
    firstFailure (s.modeChecks br bc ++ s.coefChecks br bc) = none ↔
      StoredModeAllowed s br bc ∧ CoefficientsInRange s br bc := by
  rw [firstFailure_append_none, modeChecks_pass, coefChecks_pass]

theorem exec_decp_validate (hphase : s.phase = .validate br bc) (hmode : StoredModeAllowed s br bc)
    (hcoef : CoefficientsInRange s br bc) : exec .decp s = .next { s with phase := s.snap.afterValidate br bc } :=
  (s.sweep_validate _ _ _ hphase).trans (s.checked_pass _ _ ((decodeContent_pass s br bc).2 ⟨hmode, hcoef⟩))

theorem exec_decp_clear (hphase : s.phase = .clear) :
    exec .decp s = .next { s.clearAvail with phase := .process 0 0 } := s.sweep_clear _ _ _ hphase

theorem exec_decp_process (hphase : s.phase = .process br bc) (hready : CausallyReady s br bc)
    (hmode : StoredModeAllowed s br bc) (hcoef : CoefficientsInRange s br bc) :
    exec .decp s = .next ((s.decodeBlock br bc).afterProcess br bc) :=
  (s.sweep_process _ _ _ hphase).trans (s.checked_pass _ _ ((firstFailure_append_none _ _).2
    ⟨(causalChecks_pass s br bc).2 hready, (decodeContent_pass s br bc).2 ⟨hmode, hcoef⟩⟩))

end

end Sys2Proof.Machine

namespace Sys2Proof.Proofs

open Sys2Proof.Machine

/-- Settles O11: the checks pass, and each cell and register reads as the encode block step leaves it. -/
theorem encbEncodesOneBlock : Obligations.EncbEncodesOneBlock := by
  intro s br bc hlegal hgrid hready hsamples
  refine ⟨_, exec_encb_ready s hlegal hgrid hready hsamples, fun i hi j hj => ⟨?_, ?_, ?_⟩, ?_, ?_,
    fun k hk => ⟨s.encodeBlock_resCell_other hk, s.encodeBlock_coefCell_other hk, s.encodeBlock_reconCell_other hk⟩,
    fun b hb => ⟨s.encodeBlock_modeCell_other hb, availBit_eq_of_other (s.encodeBlock_availBit br bc b) hb⟩, rfl,
    s.metricWord_eq br bc .diagonal (by simp [mem_candidates]), s.metricWord_eq br bc .vertical (by simp [mem_candidates]),
    s.metricWord_eq br bc .horizontal (by simp [mem_candidates]), modeselWord_toNat _ br bc, rfl,
    State.complete_endedWell rfl rfl, ⟨rfl, rfl, rfl, rfl, rfl, rfl, rfl, rfl, rfl, rfl, rfl, rfl⟩⟩
  · rw [State.complete_resCell, s.encodeBlock_resCell hgrid.2 hi hj, State.encodeResidual,
      s.candidateResidual_at _ br bc hi hj]
  · exact s.encodeBlock_coefCell hgrid.2 hi hj
  · rw [State.complete_reconCell, s.encodeBlock_reconCell hgrid.2 hi hj, State.encodeReconstruction,
      s.reconstruct_at _ _ hi hj, State.encodeCoefficients]
  · exact s.encodeBlock_modeCell br bc
  · exact (s.encodeBlock_availBit br bc _).2 (.inl rfl)

/-- Settles O12: the checks pass, and each cell and register reads as the decode block step leaves it. -/
theorem decbDecodesOneBlock : Obligations.DecbDecodesOneBlock := by
  intro s br bc hlegal hgeometry hgrid hready hmode hcoef
  refine ⟨_, exec_decb_ready s hlegal hgrid hgeometry hready hmode hcoef,
    fun i hi j hj => ⟨s.decodeBlock_resCell hgrid.2 hi hj, ?_⟩, (s.decodeBlock_availBit br bc _).2 (.inl rfl),
    fun k hk => ⟨s.decodeBlock_resCell_other hk, s.decodeBlock_reconCell_other hk⟩,
    fun b hb => availBit_eq_of_other (s.decodeBlock_availBit br bc b) hb, rfl, rfl, rfl, rfl, rfl, rfl,
    modeselWord_toNat _ br bc, rfl, State.complete_endedWell rfl rfl,
    ⟨rfl, rfl, rfl, rfl, rfl, rfl, rfl, rfl, rfl, rfl, rfl, rfl⟩⟩
  rw [State.complete_reconCell, s.decodeBlock_reconCell hgrid.2 hi hj, State.decodeReconstruction,
    s.reconstruct_at _ _ hi hj, State.decodeResidual, State.coefBlock]

/-- Settles O13: the checks pass, and the step stores the forward transform alone. -/
theorem fdctbTransformsOneBlock : Obligations.FdctbTransformsOneBlock := by
  intro s br bc hlegal hgrid hres
  exact ⟨_, exec_fdctb_ready s hlegal hgrid hres, fun i hi j hj => s.forwardBlock_coefCell hgrid.2 hi hj,
    fun k hk => s.forwardBlock_coefCell_other hk, rfl, rfl, State.complete_endedWell rfl rfl,
    ⟨rfl, rfl, rfl, rfl, rfl, rfl, rfl, rfl, rfl, rfl, rfl, rfl⟩, ⟨rfl, rfl, rfl, rfl⟩⟩

/-- Settles O14: the checks pass, and the step stores the inverse transform alone. -/
theorem idctbTransformsOneBlock : Obligations.IdctbTransformsOneBlock := by
  intro s br bc hlegal hgrid hcoef
  exact ⟨_, exec_idctb_ready s hlegal hgrid hcoef, fun i hi j hj => s.inverseBlock_resCell hgrid.2 hi hj,
    fun k hk => s.inverseBlock_resCell_other hk, rfl, rfl, State.complete_endedWell rfl rfl,
    ⟨rfl, rfl, rfl, rfl, rfl, rfl, rfl, rfl, rfl, rfl, rfl, rfl⟩, ⟨rfl, rfl, rfl, rfl⟩⟩

/-- Settles O15, stage by stage. -/
theorem encpStepsThroughItsStages : Obligations.EncpStepsThroughItsStages := by
  refine fun s => ⟨exec_encp_start_legal s, fun br bc hphase hsamples => ?_, exec_encp_clear s,
    fun br bc hphase hready hsamples => ?_⟩
  · rw [exec_encp_validate s hphase hsamples, Snapshot.afterValidate_eq]
  · rw [exec_encp_process s hphase hready hsamples, State.afterProcess_eq]
    rfl

/-- Settles O16, stage by stage. -/
theorem decpStepsThroughItsStages : Obligations.DecpStepsThroughItsStages := by
  refine fun s => ⟨exec_decp_start_legal s, fun br bc hphase hmode hcoef => ?_, exec_decp_clear s,
    fun br bc hphase hready hmode hcoef => ?_⟩
  · rw [exec_decp_validate s hphase hmode hcoef, Snapshot.afterValidate_eq]
  · rw [exec_decp_process s hphase hready hmode hcoef, State.afterProcess_eq]
    rfl

end Sys2Proof.Proofs
end

section
/-! SUPPORT. The address map read backwards (rules R72 to R74, R77, R78), the registers as they read and as a write leaves
them (R20 to R34, R79), the windows' cells (R75, R76), the byte view (R71), the buffers' capacity (R90), the interrupt
output (R300) and the reset event (R320, R322), for the statements of 20_memory.md, 10_state.md, 60_exceptions.md and
70_reset_and_hazards.md. -/

namespace Sys2Proof.Machine

open Sys2Proof.Safety

/-! ### The address map (R72 to R74) -/

/-- The address bits [31:28] of a window (R73). -/
def windowRegion : Window → Nat
  | .orig => 1
  | .recon => 2
  | .res => 3
  | .coef => 4
  | .mode => 5
  | .avail => 6

theorem windowRegion_bounds (win : Window) : 1 ≤ windowRegion win ∧ windowRegion win ≤ 6 := by
  cases win <;> decide

theorem windowOf_eq_some_iff (r : Nat) (win : Window) : windowOf r = some win ↔ r = windowRegion win := by
  constructor
  · intro h
    unfold windowOf at h
    split at h
    case h_7 => simp at h
    all_goals
      rw [← Option.some.inj h]
      rfl
  · rintro rfl
    cases win <;> rfl

theorem target_of_not_word (p : Capacity) (addr : Word) (size : AccessSize)
    (h : ¬(size = .word ∧ addr.toNat % 4 = 0)) : target p addr size = .unmapped := by
  simp only [target, ne_eq, ← not_and_or]
  exact if_pos h

theorem target_above_registers (p : Capacity) {addr : Word} (halign : addr.toNat % 4 = 0) (h : ¬addr.toNat < 0x1000) :
    target p addr .word = (windowOf (addr.toNat / 0x10000000)).elim .unmapped fun win =>
      if addr.toNat % 0x10000000 / 4 < windowCells p win then .cell win (addr.toNat % 0x10000000 / 4) else .unmapped := by
  simp only [target, halign, if_neg h]
  cases windowOf (addr.toNat / 0x10000000) <;> simp

theorem target_eq_register_iff (p : Capacity) (addr : Word) (size : AccessSize) (offset : Nat) :
    target p addr size = .register offset ↔
      size = .word ∧ addr.toNat % 4 = 0 ∧ addr.toNat < 0x1000 ∧ addr.toNat = offset := by
  by_cases hword : size = .word ∧ addr.toNat % 4 = 0
  · obtain ⟨rfl, halign⟩ := hword
    by_cases hlow : addr.toNat < 0x1000
    · simp [target_of_registerAddress p ⟨halign, hlow⟩, halign, hlow]
    · rw [target_above_registers p halign hlow]
      cases windowOf (addr.toNat / 0x10000000) with
      | none => simp [hlow]
      | some win =>
        simp only [Option.elim_some, hlow, false_and, and_false, iff_false]
        split <;> simp
  · rw [target_of_not_word p addr size hword]
    simp only [reduceCtorEq, false_iff]
    tauto

theorem target_eq_cell_iff (p : Capacity) (addr : Word) (size : AccessSize) (win : Window) (k : Nat) :
    target p addr size = .cell win k ↔
      size = .word ∧ addr.toNat % 4 = 0 ∧ addr.toNat / 0x10000000 = windowRegion win ∧
        addr.toNat % 0x10000000 / 4 = k ∧ k < windowCells p win := by
  by_cases hword : size = .word ∧ addr.toNat % 4 = 0
  · obtain ⟨rfl, halign⟩ := hword
    by_cases hlow : addr.toNat < 0x1000
    · have := windowRegion_bounds win
      simp only [target_of_registerAddress p ⟨halign, hlow⟩, reduceCtorEq, false_iff]
      omega
    · rw [target_above_registers p halign hlow, ← windowOf_eq_some_iff]
      cases windowOf (addr.toNat / 0x10000000) with
      | none => simp
      | some win' =>
        simp only [Option.elim_some, Option.some.injEq, halign, true_and]
        split
        · rename_i hk
          rw [Target.cell.injEq]
          constructor
          · rintro ⟨rfl, rfl⟩
            exact ⟨rfl, rfl, hk⟩
          · exact fun h => ⟨h.1, h.2.1⟩
        · rename_i hk
          simp only [reduceCtorEq, false_iff]
          rintro ⟨rfl, rfl, h⟩
          exact hk h
  · rw [target_of_not_word p addr size hword]
    simp only [reduceCtorEq, false_iff]
    tauto

/-- An address names a register, a cell, or nothing. -/
theorem target_cases (t : Target) :
    (∃ offset, t = .register offset) ∨ (∃ win k, t = .cell win k) ∨ t = .unmapped := by
  cases t with
  | register offset => exact .inl ⟨offset, rfl⟩
  | cell win k => exact .inr (.inl ⟨win, k, rfl⟩)
  | unmapped => exact .inr (.inr rfl)

/-! ### Transactions, by what the address names (R70, R77 to R79) -/

section
variable (s : State) {addr : Word} {size : AccessSize} (v : Word) {win : Window} {k offset : Nat}

theorem transact_read_register (h : target s.capacity addr size = .register offset) :
    s.transact (.read addr size) = (.data (s.readRegister offset), s) := by
  simp [State.transact, h]

theorem transact_read_cell (h : target s.capacity addr size = .cell win k) :
    s.transact (.read addr size) = if s.busy then (.busError, s) else (.data (s.readCell win k), s) := by
  simp [State.transact, h]

theorem transact_read_unmapped (h : target s.capacity addr size = .unmapped) :
    s.transact (.read addr size) = (.busError, s) := by
  simp [State.transact, h]

theorem transact_write_register (h : target s.capacity addr size = .register offset) :
    s.transact (.write addr size v) = (.done, s.writeRegister offset v) := by
  simp [State.transact, h]

theorem transact_write_cell (h : target s.capacity addr size = .cell win k) :
    s.transact (.write addr size v) =
      if s.busy then (.busError, s) else (s.writeCell win k v).elim (.busError, s) fun t => (.done, t) := by
  simp only [State.transact, h]
  cases s.writeCell win k v <;> rfl

theorem transact_write_unmapped (h : target s.capacity addr size = .unmapped) :
    s.transact (.write addr size v) = (.busError, s) := by
  simp [State.transact, h]

/-- RECON and AVAIL are the windows the host cannot write (R77). -/
theorem State.writeCell_eq_none_iff : s.writeCell win k v = none ↔ win = .recon ∨ win = .avail := by
  cases win <;> simp [State.writeCell]

theorem transact_read_ne_busError_iff (addr : Word) (size : AccessSize) :
    (s.transact (.read addr size)).1 ≠ .busError ↔
      (∃ offset, target s.capacity addr size = .register offset) ∨
        s.busy = false ∧ ∃ win k, target s.capacity addr size = .cell win k := by
  rcases target_cases (target s.capacity addr size) with ⟨offset, h⟩ | ⟨win, k, h⟩ | h
  · simp [transact_read_register s h, h]
  · rw [transact_read_cell s h]
    cases hbusy : s.busy <;> simp [h]
  · simp [transact_read_unmapped s h, h]

theorem transact_write_ne_busError_iff (addr : Word) (size : AccessSize) :
    (s.transact (.write addr size v)).1 ≠ .busError ↔
      (∃ offset, target s.capacity addr size = .register offset) ∨
        s.busy = false ∧ ∃ win k, target s.capacity addr size = .cell win k ∧ win ≠ .recon ∧ win ≠ .avail := by
  rcases target_cases (target s.capacity addr size) with ⟨offset, h⟩ | ⟨win, k, h⟩ | h
  · simp [transact_write_register s v h, h]
  · rw [transact_write_cell s v h]
    cases hbusy : s.busy with
    | true => simp [h]
    | false =>
      have hnone := s.writeCell_eq_none_iff v (win := win) (k := k)
      cases hcell : s.writeCell win k v with
      | none =>
        rcases hnone.1 hcell with rfl | rfl <;> simp [h]
      | some t =>
        have hwin := not_or.1 (mt hnone.2 (by simp [hcell]))
        simp [h, hwin]
  · simp [transact_write_unmapped s v h, h]

end

theorem exists_register_iff (p : Capacity) (addr : Word) (size : AccessSize) :
    (∃ offset, target p addr size = .register offset) ↔ size = .word ∧ addr.toNat % 4 = 0 ∧ addr.toNat < 0x1000 := by
  simp only [target_eq_register_iff]
  constructor
  · rintro ⟨offset, hsize, halign, hlow, -⟩
    exact ⟨hsize, halign, hlow⟩
  · rintro ⟨hsize, halign, hlow⟩
    exact ⟨_, hsize, halign, hlow, rfl⟩

/-- The cells of some windows are named by their regions and capacities. -/
theorem exists_cell_iff (p : Capacity) (addr : Word) (size : AccessSize) (W : Window → Prop) :
    (∃ win k, target p addr size = .cell win k ∧ W win) ↔
      size = .word ∧ addr.toNat % 4 = 0 ∧ ∃ win, addr.toNat / 0x10000000 = windowRegion win ∧
        addr.toNat % 0x10000000 / 4 < windowCells p win ∧ W win := by
  simp only [target_eq_cell_iff]
  constructor
  · rintro ⟨win, k, ⟨hsize, halign, hregion, rfl, hk⟩, hW⟩
    exact ⟨hsize, halign, win, hregion, hk, hW⟩
  · rintro ⟨hsize, halign, win, hregion, hk, hW⟩
    exact ⟨win, _, ⟨hsize, halign, hregion, rfl, hk⟩, hW⟩

theorem exists_any_cell_iff (p : Capacity) (addr : Word) (size : AccessSize) :
    (∃ win k, target p addr size = .cell win k) ↔
      size = .word ∧ addr.toNat % 4 = 0 ∧ ∃ win, addr.toNat / 0x10000000 = windowRegion win ∧
        addr.toNat % 0x10000000 / 4 < windowCells p win := by
  simpa using exists_cell_iff p addr size fun _ => True

/-- An answered transaction is an aligned word that names a register, or a cell while IDLE. -/
theorem answered_iff {word aligned low idle cell cell' : Prop} (h : cell ↔ cell') :
    (word ∧ aligned ∧ low) ∨ (idle ∧ word ∧ aligned ∧ cell) ↔ word ∧ aligned ∧ (low ∨ idle ∧ cell') := by
  rw [h]
  tauto

/-- A statement about some window is one about one of the six. -/
theorem exists_window_iff (P : Window → Prop) :
    (∃ win, P win) ↔ P .orig ∨ P .recon ∨ P .res ∨ P .coef ∨ P .mode ∨ P .avail := by
  constructor
  · rintro ⟨win, h⟩
    cases win <;> simp [h]
  · rintro (h | h | h | h | h | h) <;> exact ⟨_, h⟩

/-! ### The registers (R20 to R34) -/

theorem State.readRegister_reserved (s : State) {offset : Nat} (h : 0x038 ≤ offset) : s.readRegister offset = 0#32 := by
  unfold State.readRegister
  split
  case h_15 => rfl
  all_goals omega

theorem State.writeRegister_ignored (s : State) {offset : Nat} (v : Word) (h : offset = 0x000 ∨ 0x020 ≤ offset) :
    s.writeRegister offset v = s := by
  unfold State.writeRegister
  split
  case h_8 => rfl
  all_goals omega

/-- While a command runs the configuration registers and CMD only set DROP (R79, R301). -/
theorem State.writeRegister_busy (s : State) {offset : Nat} (v : Word) (hbusy : s.busy = true)
    (h : offset = 0x004 ∨ offset = 0x008 ∨ offset = 0x00C ∨ offset = 0x010 ∨ offset = 0x014 ∨ offset = 0x018) :
    s.writeRegister offset v = s.dropWrite := by
  rcases h with rfl | rfl | rfl | rfl | rfl | rfl
  case inr.inr.inr.inr.inr => exact s.issue_of_busy_or_err v (.inl hbusy)
  all_goals exact if_pos hbusy

/-- A write to STATUS, field by field (R28, R298). -/
theorem State.writeStatus_eq (s : State) (v : Word) :
    s.writeStatus v =
      { s with
        errpos := if v.getLsbD 2 then 0#32 else s.errpos
        status :=
          { done := if v.getLsbD 1 then false else s.status.done
            err := if v.getLsbD 2 then false else s.status.err
            drop := if v.getLsbD 3 then false else s.status.drop
            cause := if v.getLsbD 2 then .none else s.status.cause } } := by
  unfold State.writeStatus
  cases v.getLsbD 1 <;> cases v.getLsbD 2 <;> cases v.getLsbD 3 <;> simp [State.clearError]

/-- Every register after the reset event but ID is 0. -/
theorem State.readRegister_reset {offset : Nat} (h : offset ≠ 0) : State.reset.readRegister offset = 0#32 := by
  unfold State.readRegister
  split
  case h_1 => exact absurd rfl h
  all_goals rfl

/-! ### The cells of the windows (R73, R75, R76) -/

/-- A write to a window changes one cell of it. -/
theorem State.readCell_writeCell_other (s t : State) {win : Window} {k : Nat} {v : Word}
    (ht : s.writeCell win k v = some t) {win' : Window} {k' : Nat} (h : ¬(win' = win ∧ k' = k)) :
    t.readCell win' k' = s.readCell win' k' := by
  have hk (heq : win' = win) : k' ≠ k := fun hk => h ⟨heq, hk⟩
  cases win <;> simp only [State.writeCell, Option.some.injEq, reduceCtorEq] at ht <;> subst ht
  case orig =>
    cases win'
    case orig => simp [State.readCell, State.origCell, cellGet_cellPut_other _ _ (hk rfl)]
    all_goals rfl
  case res =>
    cases win'
    case res => simp [State.readCell, State.resCell, cellGet_cellPut_other _ _ (hk rfl)]
    all_goals rfl
  case coef =>
    cases win'
    case coef => simp [State.readCell, State.coefCell, cellGet_cellPut_other _ _ (hk rfl)]
    all_goals rfl
  case mode =>
    cases win'
    case mode => simp [State.readCell, State.modeCell, cellGet_cellPut_other _ _ (hk rfl)]
    all_goals rfl

/-- What a host write keeps of its word: the low bits of the cell's width (R76). -/
def cellModulus : Window → Nat
  | .orig => 65536
  | .mode => 256
  | _ => 4294967296

theorem State.readCell_writeCell_same (s t : State) {win : Window} {k : Nat} {v : Word}
    (ht : s.writeCell win k v = some t) : (t.readCell win k).toNat = v.toNat % cellModulus win := by
  have := v.isLt
  cases win <;> simp only [State.writeCell, Option.some.injEq, reduceCtorEq] at ht <;> subst ht <;>
    simp [State.readCell, State.origCell, State.resCell, State.coefCell, State.modeCell, cellModulus] <;> omega

/-- A host write to a cell changes the buffers alone, and neither RECON nor AVAIL nor MAX_W and MAX_H. -/
theorem State.writeCell_frame (s t : State) {win : Window} {k : Nat} {v : Word} (ht : s.writeCell win k v = some t) :
    t = { s with mem := t.mem } ∧ t.mem.recon = s.mem.recon ∧ t.mem.avail = s.mem.avail := by
  cases win <;> simp only [State.writeCell, Option.some.injEq, reduceCtorEq] at ht <;> subst ht <;> exact ⟨rfl, rfl, rfl⟩

/-! ### The windows on the bus (R73) -/

/-- The base address of a window (R73). -/
def windowBase : Window → Word
  | .orig => 0x10000000#32
  | .recon => 0x20000000#32
  | .res => 0x30000000#32
  | .coef => 0x40000000#32
  | .mode => 0x50000000#32
  | .avail => 0x60000000#32

theorem windowBase_toNat (win : Window) : (windowBase win).toNat = 0x10000000 * windowRegion win := by
  cases win <;> rfl

/-- A legal capacity keeps every window inside its region. -/
theorem windowCells_le {p : Capacity} (h : p.Legal) (win : Window) : windowCells p win ≤ 2 ^ 26 := by
  obtain ⟨-, -, -, -, -, -, hcap⟩ := h
  have hblk : maxBlk p ≤ p.maxW * p.maxH := Nat.mul_le_mul (Nat.div_le_self _ _) (Nat.div_le_self _ _)
  cases win
  case mode | avail => exact hblk.trans hcap
  all_goals exact hcap

/-- Cell `k` of a window stands at its base plus 4·k. -/
theorem target_windowBase {p : Capacity} (h : p.Legal) {win : Window} {k : Nat} (hk : k < windowCells p win) :
    target p (windowBase win + BitVec.ofNat 32 (4 * k)) .word = .cell win k := by
  have hcells := windowCells_le h win
  have hregion := windowRegion_bounds win
  have haddr : (windowBase win + BitVec.ofNat 32 (4 * k)).toNat = 0x10000000 * windowRegion win + 4 * k := by
    rw [BitVec.toNat_add, BitVec.toNat_ofNat, windowBase_toNat]
    omega
  have hwindow : (0x10000000 * windowRegion win + 4 * k) / 0x10000000 = windowRegion win := by omega
  have hcell : (0x10000000 * windowRegion win + 4 * k) % 0x10000000 / 4 = k := by omega
  rw [target_eq_cell_iff, haddr]
  exact ⟨rfl, by omega, hwindow, hcell, hk⟩

/-! ### The byte view (R71) -/

/-- Clearing the two low bits rounds an address down to its word. -/
theorem and_wordMask_toNat (a : Word) : (a &&& 0xFFFFFFFC#32).toNat = a.toNat / 4 * 4 := by
  have hmask : a &&& 0xFFFFFFFC#32 = (a >>> 2) <<< 2 := by
    ext i hi
    interval_cases i <;> simp
  have := a.isLt
  rw [hmask, BitVec.toNat_shiftLeft, BitVec.toNat_ushiftRight, Nat.shiftLeft_eq, Nat.shiftRight_eq_div_pow]
  omega

/-- What a word's target holds. -/
def State.readTarget (s : State) : Target → Option Word
  | .register offset => some (s.readRegister offset)
  | .cell win k => some (s.readCell win k)
  | .unmapped => none

/-- A byte of the view is a lane of its word. -/
theorem State.readByte_eq (s : State) (addr : Word) :
    s.readByte addr =
      (s.readTarget (target s.capacity (addr &&& 0xFFFFFFFC#32) .word)).map
        fun w => w.extractLsb' (8 * (addr.toNat % 4)) 8 := by
  unfold State.readByte
  rcases target_cases (target s.capacity (addr &&& 0xFFFFFFFC#32) .word) with ⟨offset, h⟩ | ⟨win, k, h⟩ | h <;>
    simp [h, State.readTarget]

/-- A read that returns a word returns what its address names, and that address is aligned. -/
theorem State.readTarget_of_read (s : State) {addr w : Word} (h : (s.transact (.read addr .word)).1 = .data w) :
    addr.toNat % 4 = 0 ∧ s.readTarget (target s.capacity addr .word) = some w := by
  rcases target_cases (target s.capacity addr .word) with ⟨offset, ht⟩ | ⟨win, k, ht⟩ | ht
  · obtain ⟨-, halign, -⟩ := (target_eq_register_iff _ _ _ _).1 ht
    rw [transact_read_register s ht] at h
    exact ⟨halign, by rw [ht, ← Answer.data.inj h]; rfl⟩
  · obtain ⟨-, halign, -⟩ := (target_eq_cell_iff _ _ _ _ _).1 ht
    rw [transact_read_cell s ht] at h
    split at h
    · simp at h
    · exact ⟨halign, by rw [ht, ← Answer.data.inj h]; rfl⟩
  · rw [transact_read_unmapped s ht] at h
    simp at h

/-- The bytes of a word the bus reads, lowest address first. -/
theorem State.readByte_of_read (s : State) {addr w : Word} (h : (s.transact (.read addr .word)).1 = .data w) {d : Nat}
    (hd : d < 4) : s.readByte (addr + BitVec.ofNat 32 d) = some (w.extractLsb' (8 * d) 8) := by
  obtain ⟨halign, hread⟩ := s.readTarget_of_read h
  have haddr := addr.isLt
  have hsum : (addr + BitVec.ofNat 32 d).toNat = addr.toNat + d := by
    simp only [BitVec.toNat_add, BitVec.toNat_ofNat]
    omega
  have hword : (addr + BitVec.ofNat 32 d) &&& 0xFFFFFFFC#32 = addr := by
    refine BitVec.eq_of_toNat_eq ?_
    rw [and_wordMask_toNat, hsum]
    omega
  have hlane : (addr.toNat + d) % 4 = d := by omega
  rw [s.readByte_eq, hword, hread, hsum, hlane]
  rfl

/-! ### The buffers hold every block of a legal plane (R90) -/

theorem Snapshot.eight_le_n (c : Snapshot) : 8 ≤ c.n := by
  unfold Snapshot.n
  split <;> decide

theorem cellIndex_lt_capacity {c : Snapshot} {p : Capacity} {br bc i j : Nat} (hlegal : ConfigLegal c p)
    (hgrid : InGrid c br bc) (hi : i < c.n) (hj : j < c.n) : c.cellIndex br bc i j < p.maxW * p.maxH := by
  obtain ⟨-, -, -, -, -, hw, hh⟩ := hlegal
  have hrow := row_lt c hgrid.1 hi
  have hcolumn := column_lt c hgrid.2 hj
  calc c.cellIndex br bc i j < (br * c.n + i) * c.w + c.w := Nat.add_lt_add_left hcolumn _
    _ = (br * c.n + i + 1) * c.w := (Nat.succ_mul _ _).symm
    _ ≤ c.h * c.w := Nat.mul_le_mul_right _ hrow
    _ ≤ p.maxH * p.maxW := Nat.mul_le_mul hh hw
    _ = p.maxW * p.maxH := Nat.mul_comm _ _

theorem blockIndex_lt_capacity {c : Snapshot} {p : Capacity} {br bc : Nat} (hlegal : ConfigLegal c p)
    (hgrid : InGrid c br bc) : c.blockIndex br bc < p.maxW / 8 * (p.maxH / 8) := by
  obtain ⟨-, -, -, -, -, hw, hh⟩ := hlegal
  calc c.blockIndex br bc < c.brows * c.bcols := blockIndex_lt c hgrid.1 hgrid.2
    _ ≤ p.maxH / 8 * (p.maxW / 8) :=
      Nat.mul_le_mul (Nat.div_le_div hh c.eight_le_n (by decide)) (Nat.div_le_div hw c.eight_le_n (by decide))
    _ = p.maxW / 8 * (p.maxH / 8) := Nat.mul_comm _ _

/-! ### The interrupt output (R300) -/

theorem State.irq_eq_true_iff (s : State) :
    s.irq = true ↔ (s.status.done = true ∧ s.ctrl.getLsbD 1 = true) ∨
      (s.status.err = true ∧ s.ctrl.getLsbD 2 = true) := by
  simp [State.irq]

theorem State.accept_irq (s : State) (w : Word) (h : s.status.err = false) : (s.accept w).irq = false := by
  simp [State.irq, h]

end Sys2Proof.Machine

namespace Sys2Proof.Proofs

open Sys2Proof.Machine

/-- Settles O25: a bus error and a read leave the state in every branch, and a step is the transaction and its record. -/
theorem busErrorsAndReadsChangeNothing : Obligations.BusErrorsAndReadsChangeNothing := by
  intro s txn
  refine ⟨fun herror => ?_, ?_, fun rest hreset hscript => step_of_bus s hreset hscript⟩
  · rcases transact_cases s txn with h | ⟨_, _, _, _, -, -, h⟩ | ⟨_, _, _, _, _, _, -, -, -, -, h⟩
    · exact h
    · simp [h] at herror
    · simp [h] at herror
  · rintro addr size rfl
    rcases target_cases (target s.capacity addr size) with ⟨offset, h⟩ | ⟨win, k, h⟩ | h
    · rw [transact_read_register s h]
    · rw [transact_read_cell s h]
      split <;> rfl
    · rw [transact_read_unmapped s h]

/-- Settles O26: a transaction is answered exactly where the address map names a register, or a cell while IDLE. -/
theorem busErrorsAreThoseListed : Obligations.BusErrorsAreThoseListed := by
  intro s addr size v
  rw [transact_read_ne_busError_iff, transact_write_ne_busError_iff, exists_register_iff, exists_any_cell_iff,
    exists_cell_iff]
  simp only [exists_window_iff, windowRegion, windowCells, capCells, maxBlk, ne_eq, reduceCtorEq, not_true,
    not_false_iff, and_true, and_false, false_or, or_false]
  exact ⟨answered_iff (by omega), answered_iff (by omega)⟩

/-- Settles O27, offset by offset. -/
theorem registerWritesStoreDropOrAreIgnored : Obligations.RegisterWritesStoreDropOrAreIgnored := by
  intro s v
  exact ⟨fun h => ⟨s.writeRegister_ctrl v h, s.writeRegister_plane v h, s.writeRegister_width v h,
      s.writeRegister_height v h, s.writeRegister_geom v h⟩,
    fun hbusy _ => s.writeRegister_busy v hbusy, fun _ => s.writeRegister_ignored v,
    fun addr hlow halign => transact_write_register s v (target_of_registerAddress s.capacity ⟨halign, hlow⟩)⟩

/-- Settles O28, offset by offset. -/
theorem registersReadAsLaidOut : Obligations.RegistersReadAsLaidOut := fun s =>
  ⟨rfl, rfl, rfl, rfl, rfl, rfl, rfl, rfl, rfl, rfl, rfl, rfl, rfl, s.statusWord_toNat,
    fun _ => s.readRegister_reserved,
    fun _ hlow halign => transact_read_register s (target_of_registerAddress s.capacity ⟨halign, hlow⟩)⟩

/-- Settles O29, field by field. -/
theorem statusIsWriteOneToClear : Obligations.StatusIsWriteOneToClear := State.writeStatus_eq

/-- Settles O30: the formats, the one cell a write changes, and the window's region on the bus. -/
theorem cellWritesReadBack : Obligations.CellWritesReadBack := by
  refine ⟨fun s k => ⟨?_, ?_, rfl, rfl, ?_, ?_⟩, fun s k v => ⟨rfl, rfl, fun win hrecon havail => ?_⟩,
    fun s hlegal hidle p hp k hk => ?_⟩
  · have := (s.origCell k).isLt
    simp [State.readCell]
    omega
  · have := (s.reconCell k).isLt
    simp [State.readCell]
    omega
  · have := (s.modeCell k).isLt
    simp [State.readCell]
    omega
  · rw [State.readCell]
    cases s.availBit k <;> rfl
  · cases ht : s.writeCell win k v with
    | none =>
      rcases (s.writeCell_eq_none_iff v).1 ht with h | h
      · exact absurd h hrecon
      · exact absurd h havail
    | some t =>
      have hsame := s.readCell_writeCell_same t ht
      refine ⟨t, rfl, ?_, fun _ _ => s.readCell_writeCell_other t ht, (s.writeCell_frame t ht).1⟩
      cases win
      case res | coef => exact hsame.trans (Nat.mod_eq_of_lt v.isLt)
      case recon | avail => contradiction
      all_goals exact hsame
  · have hwindow : p.2 = windowBase p.1 ∧ k < windowCells s.capacity p.1 := by
      simp only [List.mem_cons, List.not_mem_nil, or_false] at hp
      rcases hp with rfl | rfl | rfl | rfl | rfl | rfl <;> exact ⟨rfl, hk⟩
    obtain ⟨hbase, hcell⟩ := hwindow
    have htarget := target_windowBase hlegal hcell
    rw [hbase]
    refine ⟨?_, fun v => ?_⟩
    · rw [transact_read_cell s htarget, hidle]
      rfl
    · rw [transact_write_cell s v htarget, hidle]
      cases s.writeCell p.1 k v <;> rfl

/-- Settles O31: byte `addr + d` is lane `d` of the word at `addr`. -/
theorem bytesAreLittleEndian : Obligations.BytesAreLittleEndian := by
  intro s addr w h
  have lane {d : Nat} (hd : d < 4) := s.readByte_of_read h hd
  have lowest := lane (d := 0) (by decide)
  rw [BitVec.add_zero] at lowest
  exact ⟨lowest, lane (d := 1) (by decide), lane (d := 2) (by decide), lane (d := 3) (by decide)⟩

/-- Settles O32: rows and columns of the grid's blocks stay inside the plane, and the plane inside the buffers. -/
theorem engineIndicesAreWithinCapacity : Obligations.EngineIndicesAreWithinCapacity :=
  fun _ _ _ _ _ _ _ hlegal hgrid hi hj => ⟨cellIndex_lt_capacity hlegal hgrid hi hj, blockIndex_lt_capacity hlegal hgrid⟩

/-- Settles O34, from the formula of `irq`. -/
theorem irqFollowsDoneAndErr : Obligations.IrqFollowsDoneAndErr := fun s =>
  ⟨s.irq_eq_true_iff, s.accept_irq, rfl⟩

/-- Settles O35: the registers one by one, and buffers without a written cell. -/
theorem resetStateReadsAsStated : Obligations.ResetStateReadsAsStated :=
  ⟨rfl, fun _ => State.readRegister_reset, fun _ => rfl, rfl, rfl, fun _ _ => ⟨rfl, rfl, rfl, rfl, rfl⟩⟩

/-- Settles O36, by the step of each event. -/
theorem resetAbandonsEverything : Obligations.ResetAbandonsEverything := fun s _ =>
  ⟨fun hscript => ⟨_, step_of_reset s hscript, fun _ => rfl, rfl, rfl, rfl, rfl, rfl, rfl⟩,
    fun hscript => step_of_reset s hscript, fun _ hreset hscript => step_of_bus_in_reset s hreset hscript⟩

end Sys2Proof.Proofs
end

section
/-! SUPPORT. What a command step, a transaction and a step of the machine can do to each part of the state, each said once,
and the packaging of a step invariant (rules R17, R40 to R49, R81, R320), for the invariants. -/

namespace Sys2Proof.Machine

open Sys2Proof.Safety

/-! ### The frame of a command step (R49, R81) -/

theorem State.afterProcess_hostSideKept (s : State) (br bc : Nat) : HostSideKept s (s.afterProcess br bc) := by
  rcases s.afterProcess_cases br bc with ⟨-, h⟩ | ⟨br', bc', -, h⟩ <;> rw [h] <;>
    exact ⟨rfl, rfl, rfl, rfl, rfl, rfl, rfl, rfl, rfl, rfl, rfl, rfl⟩

@[simp] theorem State.afterProcess_mem (s : State) (br bc : Nat) : (s.afterProcess br bc).mem = s.mem := by
  rcases s.afterProcess_cases br bc with ⟨-, h⟩ | ⟨br', bc', -, h⟩ <;> rw [h]
  rfl

/-- No command step changes the configuration, LASTCMD, the snapshot, the capacity, the reset input or the host's
side. -/
theorem exec_hostSideKept (i : Instr) (s t : State) (h : exec i s = .next t) : HostSideKept s t := by
  rcases exec_cases i s t h with ⟨f, rfl⟩ | ⟨-, rfl⟩ | ⟨-, rfl⟩ | ⟨br, bc, -, -, -, -, -, rfl⟩ |
    ⟨br, bc, -, -, -, -, -, -, -, rfl⟩ | ⟨br, bc, -, -, -, -, rfl⟩ | ⟨br, bc, -, -, -, -, rfl⟩ | ⟨-, -, -, rfl⟩ |
    ⟨br, bc, -, -, rfl⟩ | ⟨-, -, rfl⟩ | ⟨br, bc, -, -, ⟨-, -, rfl⟩ | ⟨-, -, -, rfl⟩⟩
  case inr.inr.inr.inr.inr.inr.inr.inr.inr.inr.inl => exact (s.encodeBlock br bc).afterProcess_hostSideKept br bc
  case inr.inr.inr.inr.inr.inr.inr.inr.inr.inr.inr => exact (s.decodeBlock br bc).afterProcess_hostSideKept br bc
  all_goals exact ⟨rfl, rfl, rfl, rfl, rfl, rfl, rfl, rfl, rfl, rfl, rfl, rfl⟩

/-- How a command step ends: with the error completion, successfully, or with the command still running. -/
theorem exec_end_cases (i : Instr) (s t : State) (h : exec i s = .next t) :
    (∃ f, t = s.raise f) ∨ EndedWell s t ∨ (t.phase ≠ .idle ∧ t.status = s.status ∧ t.errpos = s.errpos) := by
  have process (u : State) (br bc : Nat) (hstatus : u.status = s.status) (herrpos : u.errpos = s.errpos) :
      EndedWell s (u.afterProcess br bc) ∨ ((u.afterProcess br bc).phase ≠ .idle ∧
        (u.afterProcess br bc).status = s.status ∧ (u.afterProcess br bc).errpos = s.errpos) := by
    rcases u.afterProcess_cases br bc with ⟨-, h⟩ | ⟨br', bc', -, h⟩ <;> rw [h]
    · exact .inl (State.complete_endedWell hstatus herrpos)
    · exact .inr ⟨nofun, hstatus, herrpos⟩
  rcases exec_cases i s t h with ⟨f, rfl⟩ | ⟨-, rfl⟩ | ⟨-, rfl⟩ | ⟨br, bc, -, -, -, -, -, rfl⟩ |
    ⟨br, bc, -, -, -, -, -, -, -, rfl⟩ | ⟨br, bc, -, -, -, -, rfl⟩ | ⟨br, bc, -, -, -, -, rfl⟩ | ⟨-, -, -, rfl⟩ |
    ⟨br, bc, -, -, rfl⟩ | ⟨-, -, rfl⟩ | ⟨br, bc, -, -, ⟨-, -, rfl⟩ | ⟨-, -, -, rfl⟩⟩
  · exact .inl ⟨f, rfl⟩
  case inr.inr.inr.inr.inr.inr.inr.inl => exact .inr (.inr ⟨nofun, rfl, rfl⟩)
  case inr.inr.inr.inr.inr.inr.inr.inr.inl =>
    refine .inr (.inr ⟨?_, rfl, rfl⟩)
    rw [Snapshot.afterValidate_eq]
    split
    · nofun
    · split <;> nofun
  case inr.inr.inr.inr.inr.inr.inr.inr.inr.inl => exact .inr (.inr ⟨nofun, rfl, rfl⟩)
  case inr.inr.inr.inr.inr.inr.inr.inr.inr.inr.inl => exact .inr (process _ br bc rfl rfl)
  case inr.inr.inr.inr.inr.inr.inr.inr.inr.inr.inr => exact .inr (process _ br bc rfl rfl)
  all_goals exact .inr (.inl (State.complete_endedWell rfl rfl))

/-! ### The buffers after a command step (R40 to R46) -/

/-- Command `i` makes the encode block step of (br, bc): an ENCB of a block of the grid, or the STEP of an ENCP. -/
def EncodesBlock (i : Instr) (s : State) (br bc : Nat) : Prop :=
  (i = .encb br bc ∧ InGrid s.snap br bc) ∨ (i = .encp ∧ s.phase = .process br bc)

/-- Command `i` makes the decode block step of (br, bc): a DECB of a block of the grid, or the STEP of a DECP. -/
def DecodesBlock (i : Instr) (s : State) (br bc : Nat) : Prop :=
  (i = .decb br bc ∧ InGrid s.snap br bc) ∨ (i = .decp ∧ s.phase = .process br bc)

/-- Command `i` clears the AVAIL map: CLRAV, or the CLEAR of a sweep (R46). -/
def ClearsAvail (i : Instr) (s : State) : Prop :=
  i = .clrav ∨ (s.phase = .clear ∧ (i = .encp ∨ i = .decp))

/-- All a command step can do to the buffers. -/
theorem exec_mem_cases (i : Instr) (s t : State) (h : exec i s = .next t) :
    t.mem = s.mem ∨ (ClearsAvail i s ∧ t.mem = s.clearAvail.mem) ∨
      (∃ br bc, EncodesBlock i s br bc ∧ t.mem = (s.encodeBlock br bc).mem) ∨
      (∃ br bc, DecodesBlock i s br bc ∧ t.mem = (s.decodeBlock br bc).mem) ∨
      (∃ br bc, t.mem = (s.forwardBlock br bc).mem) ∨ (∃ br bc, t.mem = (s.inverseBlock br bc).mem) := by
  rcases exec_cases i s t h with ⟨f, rfl⟩ | ⟨-, rfl⟩ | ⟨hi, rfl⟩ | ⟨br, bc, hi, -, hgrid, -, -, rfl⟩ |
    ⟨br, bc, hi, -, -, hgrid, -, -, -, rfl⟩ | ⟨br, bc, -, -, -, -, rfl⟩ | ⟨br, bc, -, -, -, -, rfl⟩ | ⟨-, -, -, rfl⟩ |
    ⟨br, bc, -, -, rfl⟩ | ⟨hi, hphase, rfl⟩ | ⟨br, bc, hphase, -, ⟨hi, -, rfl⟩ | ⟨hi, -, -, rfl⟩⟩
  · exact .inl rfl
  · exact .inl rfl
  · exact .inr (.inl ⟨.inl hi, rfl⟩)
  · exact .inr (.inr (.inl ⟨br, bc, .inl ⟨hi, hgrid⟩, rfl⟩))
  · exact .inr (.inr (.inr (.inl ⟨br, bc, .inl ⟨hi, hgrid⟩, rfl⟩)))
  · exact .inr (.inr (.inr (.inr (.inl ⟨br, bc, rfl⟩))))
  · exact .inr (.inr (.inr (.inr (.inr ⟨br, bc, rfl⟩))))
  · exact .inl rfl
  · exact .inl rfl
  · exact .inr (.inl ⟨.inr ⟨hphase, hi⟩, rfl⟩)
  · exact .inr (.inr (.inl ⟨br, bc, .inr ⟨hi, hphase⟩, by simp⟩))
  · exact .inr (.inr (.inr (.inl ⟨br, bc, .inr ⟨hi, hphase⟩, by simp⟩)))

/-! ### The frame of a register write and of a transaction -/

theorem State.writeStatus_mem (s : State) (v : Word) : (s.writeStatus v).mem = s.mem := by
  rw [State.writeStatus_eq]

theorem State.writeRegister_capacity (s : State) (offset : Nat) (v : Word) :
    (s.writeRegister offset v).capacity = s.capacity := by
  rcases writeRegister_cases s offset v with
    h | h | ⟨-, -, h⟩ | ⟨-, -, h⟩ | ⟨-, -, h⟩ | ⟨-, -, h⟩ | ⟨-, -, h⟩ | ⟨-, -, -, h⟩ | ⟨-, h⟩ <;>
    simp [h, State.writeStatus_eq]

/-- A register write leaves the buffers, or it is an accepted PLANE, WIDTH or HEIGHT write, which clears AVAIL (R46). -/
theorem State.writeRegister_mem_cases (s : State) (offset : Nat) (v : Word) :
    (s.writeRegister offset v).mem = s.mem ∨
      ((s.writeRegister offset v).mem = s.clearAvail.mem ∧ s.busy = false ∧
        (offset = 0x008 ∨ offset = 0x00C ∨ offset = 0x010)) := by
  rcases writeRegister_cases s offset v with
    h | h | ⟨-, -, h⟩ | ⟨ho, hb, h⟩ | ⟨ho, hb, h⟩ | ⟨ho, hb, h⟩ | ⟨-, -, h⟩ | ⟨-, -, -, h⟩ | ⟨-, h⟩ <;> rw [h]
  case inr.inr.inr.inl => exact .inr ⟨rfl, hb, .inl ho⟩
  case inr.inr.inr.inr.inl => exact .inr ⟨rfl, hb, .inr (.inl ho)⟩
  case inr.inr.inr.inr.inr.inl => exact .inr ⟨rfl, hb, .inr (.inr ho)⟩
  case inr.inr.inr.inr.inr.inr.inr.inr => exact .inl (s.writeStatus_mem v)
  all_goals exact .inl rfl

/-- What a transaction does to RECON, to AVAIL and to the capacities: it leaves them, or it is an accepted geometry
write, which clears AVAIL (R46, R77). -/
theorem transact_frame (s : State) (txn : Txn) :
    (s.transact txn).2.capacity = s.capacity ∧ (s.transact txn).2.mem.recon = s.mem.recon ∧
      ((s.transact txn).2.mem.avail = s.mem.avail ∨
        ((s.transact txn).2.mem.avail = [] ∧ s.busy = false ∧
          ∃ addr v, txn = .write addr .word v ∧ (addr = 0x008#32 ∨ addr = 0x00C#32 ∨ addr = 0x010#32))) := by
  rcases transact_cases s txn with h | ⟨addr, size, v, offset, rfl, htarget, h⟩ | ⟨addr, size, v, win, k, t, -, -, -, ht, h⟩
  · rw [h]
    exact ⟨rfl, rfl, .inl rfl⟩
  · obtain ⟨rfl, -, -, haddr⟩ := (target_eq_register_iff _ _ _ _).1 htarget
    rw [h]
    refine ⟨s.writeRegister_capacity offset v, ?_⟩
    rcases s.writeRegister_mem_cases offset v with hmem | ⟨hmem, hidle, hoffset⟩ <;> rw [hmem]
    · exact ⟨rfl, .inl rfl⟩
    · refine ⟨rfl, .inr ⟨rfl, hidle, addr, v, rfl, ?_⟩⟩
      simp only [← BitVec.toNat_inj, haddr]
      exact hoffset
  · obtain ⟨hframe, hrecon, havail⟩ := s.writeCell_frame t ht
    rw [h]
    refine ⟨?_, hrecon, .inl havail⟩
    rw [hframe]

/-! ### One step, by what it does to the state -/

/-- A step is the engine's turn, a transaction, or an edge of the reset input, on the state with its script shortened and,
for a transaction, its answer recorded. -/
theorem step_withHost_cases (s t : State) (h : step s = .next t) :
    (∃ p, (s.pending = [] ∨ ∃ rest, s.pending = .engine :: rest) ∧
      State.engineTurn (s.withHost p s.answers) = .next t) ∨
    (∃ txn rest a, s.pending = .bus txn :: rest ∧ s.resetLine = false ∧
      t = ((s.withHost rest s.answers).transact txn).2.withHost ((s.withHost rest s.answers).transact txn).2.pending a) ∨
    (∃ rest, s.pending = .reset true :: rest ∧ t = (s.withHost rest s.answers).assertReset) ∨
    (∃ rest, s.pending = .reset false :: rest ∧ t = (s.withHost rest s.answers).releaseReset) := by
  rcases step_cases s t h with ⟨hp, h⟩ | ⟨rest, hp, h⟩ | ⟨txn, rest, hp, hr, rfl⟩ | ⟨rest, hp, rfl⟩ | ⟨rest, hp, rfl⟩
  · exact .inl ⟨s.pending, .inl hp, h⟩
  · exact .inl ⟨rest, .inr ⟨rest, hp⟩, h⟩
  · exact .inr (.inl ⟨txn, rest, _, hp, hr, rfl⟩)
  · exact .inr (.inr (.inl ⟨rest, hp, rfl⟩))
  · exact .inr (.inr (.inr ⟨rest, hp, rfl⟩))

/-- What a step invariant has to withstand: each thing the engine, the host and the reset input can do. -/
structure StepInvariant (P : State → Prop) : Prop where
  host : ∀ s p a, P s → P (s.withHost p a)
  badCmd : ∀ s, P s → s.busy = true → P (s.raise ⟨.badCmd, 0, 0⟩)
  exec : ∀ i s t, P s → s.busy = true → decode s.lastCmd = .ok i → exec i s = .next t → P t
  writeRegister : ∀ s offset v, P s → P (s.writeRegister offset v)
  writeCell : ∀ s win k v t, P s → s.busy = false → s.writeCell win k v = some t → P t
  assertReset : ∀ s, P s → P s.assertReset
  releaseReset : ∀ s, P s → P s.releaseReset

/-- A step invariant is kept by every step. -/
theorem StepInvariant.step {P : State → Prop} (inv : StepInvariant P) {s t : State} (hs : P s)
    (h : step s = .next t) : P t := by
  have host (p a) := inv.host s p a hs
  rcases step_withHost_cases s t h with ⟨p, -, h⟩ | ⟨txn, rest, a, -, -, rfl⟩ | ⟨rest, -, rfl⟩ | ⟨rest, -, rfl⟩
  · have hp := host p s.answers
    rcases engineTurn_cases _ t h with ⟨-, rfl⟩ | ⟨-, hbusy, ⟨e, -, rfl⟩ | ⟨i, hdecode, hexec⟩⟩
    · exact hp
    · exact inv.badCmd _ hp hbusy
    · exact inv.exec i _ t hp hbusy hdecode hexec
  · refine inv.host _ _ _ ?_
    have hp := host rest s.answers
    rcases transact_cases (s.withHost rest s.answers) txn with
      h | ⟨_, _, v, offset, -, -, h⟩ | ⟨_, _, v, win, k, t, -, -, hidle, ht, h⟩ <;> rw [h]
    · exact hp
    · exact inv.writeRegister _ offset v hp
    · exact inv.writeCell _ win k v t hp ((State.busy_eq_false_iff _).2 hidle) ht
  · exact inv.assertReset _ (host _ _)
  · exact inv.releaseReset _ (host _ _)

/-! ### The AVAIL map and ORIG over one step (R40, R45, R46) -/

/-- All a command step can do to the AVAIL map. -/
theorem exec_avail_cases (i : Instr) (s t : State) (h : exec i s = .next t) :
    t.mem.avail = s.mem.avail ∨ (ClearsAvail i s ∧ t.mem.avail = []) ∨
      (∃ br bc, (EncodesBlock i s br bc ∨ DecodesBlock i s br bc) ∧
        t.mem.avail = availPut s.mem.avail (s.snap.blockIndex br bc)) := by
  rcases exec_mem_cases i s t h with
    h | ⟨hi, h⟩ | ⟨br, bc, hi, h⟩ | ⟨br, bc, hi, h⟩ | ⟨br, bc, h⟩ | ⟨br, bc, h⟩ <;> rw [h]
  · exact .inl rfl
  · exact .inr (.inl ⟨hi, rfl⟩)
  · exact .inr (.inr ⟨br, bc, .inl hi, rfl⟩)
  · exact .inr (.inr ⟨br, bc, .inr hi, rfl⟩)
  · exact .inl rfl
  · exact .inl rfl

/-- The engine has its turn, by the script or with none left, and a command to run. -/
def EngineRuns (s : State) : Prop :=
  (s.pending = [] ∨ ∃ rest, s.pending = .engine :: rest) ∧ s.resetLine = false ∧ s.busy = true

/-- A word is written to PLANE, WIDTH or HEIGHT in IDLE (R46). -/
def GeometryWritten (s : State) : Prop :=
  ∃ addr v rest, s.pending = .bus (.write addr .word v) :: rest ∧ s.resetLine = false ∧ s.busy = false ∧
    (addr = 0x008#32 ∨ addr = 0x00C#32 ∨ addr = 0x010#32)

/-- All a step can do to the AVAIL map. -/
theorem step_avail_cases (s t : State) (h : step s = .next t) :
    t.mem.avail = s.mem.avail ∨
    (t.mem.avail = [] ∧ ((∃ rest, s.pending = .reset true :: rest) ∨ GeometryWritten s ∨
      (EngineRuns s ∧ ∃ i, decode s.lastCmd = .ok i ∧ ClearsAvail i s))) ∨
    (EngineRuns s ∧ ∃ i br bc, decode s.lastCmd = .ok i ∧ (EncodesBlock i s br bc ∨ DecodesBlock i s br bc) ∧
      t.mem.avail = availPut s.mem.avail (s.snap.blockIndex br bc)) := by
  rcases step_withHost_cases s t h with ⟨p, hturn, h⟩ | ⟨txn, rest, a, hp, hreset, rfl⟩ | ⟨rest, hp, rfl⟩ | ⟨rest, -, rfl⟩
  · rcases engineTurn_cases _ t h with ⟨-, rfl⟩ | ⟨hreset, hbusy, ⟨e, -, rfl⟩ | ⟨i, hdecode, hexec⟩⟩
    · exact .inl rfl
    · exact .inl rfl
    · have hruns : EngineRuns s := ⟨hturn, hreset, hbusy⟩
      rcases exec_avail_cases i _ t hexec with h | ⟨hi, h⟩ | ⟨br, bc, hi, h⟩
      · exact .inl h
      · exact .inr (.inl ⟨h, .inr (.inr ⟨hruns, i, hdecode, hi⟩)⟩)
      · exact .inr (.inr ⟨hruns, i, br, bc, hdecode, hi, h⟩)
  · obtain ⟨-, -, h | ⟨h, hidle, addr, v, rfl, haddr⟩⟩ := transact_frame (s.withHost rest s.answers) txn
    · exact .inl h
    · exact .inr (.inl ⟨h, .inr (.inl ⟨addr, v, rest, hp, hreset, hidle, haddr⟩)⟩)
  · exact .inr (.inl ⟨rfl, .inl ⟨rest, hp⟩⟩)
  · exact .inl rfl

/-- The engine's turn leaves the capacity and ORIG (R40). -/
theorem engineTurn_frame (s t : State) (h : s.engineTurn = .next t) :
    t.capacity = s.capacity ∧ t.mem.orig = s.mem.orig := by
  rcases engineTurn_cases s t h with ⟨-, rfl⟩ | ⟨-, -, ⟨e, -, rfl⟩ | ⟨i, -, hexec⟩⟩
  · exact ⟨rfl, rfl⟩
  · exact ⟨rfl, rfl⟩
  · obtain ⟨-, -, -, -, -, -, -, hcapacity, -⟩ := exec_hostSideKept i s t hexec
    refine ⟨hcapacity, ?_⟩
    rcases exec_mem_cases i s t hexec with
      h | ⟨-, h⟩ | ⟨br, bc, -, h⟩ | ⟨br, bc, -, h⟩ | ⟨br, bc, h⟩ | ⟨br, bc, h⟩ <;> rw [h] <;> rfl

/-! ### The canonical form of the memory (log entry 1) -/

theorem exec_mem_wf (i : Instr) (s t : State) (hs : s.mem.wf) (h : exec i s = .next t) : t.mem.wf := by
  rcases exec_mem_cases i s t h with
    h | ⟨-, h⟩ | ⟨br, bc, -, h⟩ | ⟨br, bc, -, h⟩ | ⟨br, bc, h⟩ | ⟨br, bc, h⟩ <;> rw [h]
  · exact hs
  · exact s.clearAvail_wf hs
  · exact s.encodeBlock_wf br bc hs
  · exact s.decodeBlock_wf br bc hs
  · exact s.forwardBlock_wf br bc hs
  · exact s.inverseBlock_wf br bc hs

theorem memWf_stepInvariant : StepInvariant fun s => s.mem.wf where
  host _ _ _ hs := hs
  badCmd _ hs _ := hs
  exec i s t hs _ _ h := exec_mem_wf i s t hs h
  writeRegister s offset v hs := by
    rcases s.writeRegister_mem_cases offset v with h | ⟨h, -⟩ <;> rw [h]
    · exact hs
    · exact s.clearAvail_wf hs
  writeCell s win k v t hs _ ht := s.writeCell_wf t win k v hs ht
  assertReset s _ := s.assertReset_wf
  releaseReset _ hs := hs

/-! ### The reserved bits of the configuration (R22 to R25) -/

theorem and_toNat_le (v : Word) (m : Nat) (hm : m < 2 ^ 32) : (v &&& BitVec.ofNat 32 m).toNat ≤ m := by
  rw [BitVec.toNat_and, BitVec.toNat_ofNat, Nat.mod_eq_of_lt hm]
  exact Nat.and_le_right

theorem reservedBits_stepInvariant : StepInvariant ReservedBitsZero where
  host _ _ _ hs := hs
  badCmd _ hs _ := hs
  exec i s t hs _ _ h := by
    obtain ⟨hctrl, hplane, hwidth, hheight, -⟩ := exec_hostSideKept i s t h
    rwa [ReservedBitsZero, hctrl, hplane, hwidth, hheight]
  writeRegister s offset v hs := by
    obtain ⟨hctrl, hplane, hwidth, hheight⟩ := hs
    rcases writeRegister_cases s offset v with
      h | h | ⟨-, -, h⟩ | ⟨-, -, h⟩ | ⟨-, -, h⟩ | ⟨-, -, h⟩ | ⟨-, -, h⟩ | ⟨-, -, -, h⟩ | ⟨-, h⟩ <;> rw [h]
    case inr.inr.inl =>
      exact ⟨Nat.lt_succ_of_le (and_toNat_le v 7 (by decide)), hplane, hwidth, hheight⟩
    case inr.inr.inr.inl =>
      refine ⟨hctrl, ?_, hwidth, hheight⟩
      show v &&& 0x13#32 &&& 0xFFFFFFEC#32 = 0#32
      rw [BitVec.and_assoc]
      exact BitVec.and_zero
    case inr.inr.inr.inr.inl =>
      exact ⟨hctrl, hplane, Nat.lt_succ_of_le (and_toNat_le v 65535 (by decide)), hheight⟩
    case inr.inr.inr.inr.inr.inl =>
      exact ⟨hctrl, hplane, hwidth, Nat.lt_succ_of_le (and_toNat_le v 65535 (by decide))⟩
    case inr.inr.inr.inr.inr.inr.inr.inr =>
      rw [State.writeStatus_eq]
      exact ⟨hctrl, hplane, hwidth, hheight⟩
    all_goals exact ⟨hctrl, hplane, hwidth, hheight⟩
  writeCell s win k v t hs _ ht := by
    rw [(s.writeCell_frame t ht).1]
    exact hs
  assertReset s _ := by simp [ReservedBitsZero]
  releaseReset _ hs := hs

/-! ### STATUS, CAUSE and ERRPOS (R28, R29, R296) -/

/-- The error completion leaves a sound STATUS when it names a cause. -/
theorem State.raise_statusSound (s : State) {f : Failure} (h : f.cause ≠ .none) : StatusSound (s.raise f) := by
  simp [StatusSound, State.busy, h]

/-- While a command runs, ERR is 0, so a step that ends with an error names its cause. -/
theorem exec_statusSound (i : Instr) (s t : State) (hs : StatusSound s) (hbusy : s.busy = true)
    (h : exec i s = .next t) : StatusSound t := by
  obtain ⟨-, hclear, -, hrunning⟩ := hs
  obtain ⟨hdone, herr⟩ := hrunning hbusy
  obtain ⟨hcause, herrpos⟩ := hclear herr
  rcases exec_err i s t h with ⟨f, hf, rfl⟩ | hkept
  · exact s.raise_statusSound hf
  · rw [herr] at hkept
    rcases exec_end_cases i s t h with ⟨f, rfl⟩ | ⟨hphase, -, -, -, hc, he⟩ | ⟨-, hstatus, he⟩
    · simp at hkept
    · simp [StatusSound, hkept, hc, he, hcause, herrpos, State.busy, hphase]
    · simp [StatusSound, hstatus, he, hdone, herr, hcause, herrpos]

theorem writeStatus_statusSound (s : State) (v : Word) (hs : StatusSound s) : StatusSound (s.writeStatus v) := by
  obtain ⟨hboth, hclear, hcause, hrunning⟩ := hs
  rw [State.writeStatus_eq]
  cases hdone : v.getLsbD 1 <;> cases herr : v.getLsbD 2 <;> simp_all [StatusSound, State.busy]

theorem statusSound_stepInvariant : StepInvariant StatusSound where
  host _ _ _ hs := hs
  badCmd s _ _ := s.raise_statusSound (by decide)
  exec i s t hs hbusy _ h := exec_statusSound i s t hs hbusy h
  writeRegister s offset v hs := by
    rcases writeRegister_cases s offset v with
      h | h | ⟨-, -, h⟩ | ⟨-, -, h⟩ | ⟨-, -, h⟩ | ⟨-, -, h⟩ | ⟨-, -, h⟩ | ⟨-, -, herr, h⟩ | ⟨-, h⟩ <;> rw [h]
    case inr.inr.inr.inr.inr.inr.inr.inl =>
      have hclear := hs.2.1 herr
      simp [StatusSound, herr, hclear]
    case inr.inr.inr.inr.inr.inr.inr.inr => exact writeStatus_statusSound s v hs
    all_goals exact hs
  writeCell s win k v t hs _ ht := by
    rw [(s.writeCell_frame t ht).1]
    exact hs
  assertReset s _ := by simp [StatusSound, State.busy]
  releaseReset _ hs := hs

end Sys2Proof.Machine

namespace Sys2Proof.Proofs

open Sys2Proof.Machine

/-- Settles O52: every write to a buffer keeps its indices rising. -/
theorem memoryStaysCanonical : Obligations.MemoryStaysCanonical := fun _ _ => memWf_stepInvariant.step

/-- Settles O53: only the accepted register writes change the configuration, and they mask the reserved bits. -/
theorem reservedBitsStayZero : Obligations.ReservedBitsStayZero := fun _ _ => reservedBits_stepInvariant.step

/-- Settles O54: a command completes with one of the two flags, an error names its cause, and clearing ERR clears CAUSE and
ERRPOS. -/
theorem statusStaysSound : Obligations.StatusStaysSound := fun _ _ => statusSound_stepInvariant.step

/-- Settles O58: only the encode and the decode block step put a bit into the map, their own block's. -/
theorem onlyBlockStepsSetAvail : Obligations.OnlyBlockStepsSetAvail := by
  intro s t b hstep hbefore hafter
  simp only [State.availBit, List.contains_eq_mem, decide_eq_true_eq, decide_eq_false_iff_not] at hbefore hafter
  rcases step_avail_cases s t hstep with h | ⟨h, -⟩ | ⟨hturn, i, br, bc, hdecode, hblock, h⟩ <;> rw [h] at hafter
  · exact absurd hafter hbefore
  · exact absurd hafter List.not_mem_nil
  · obtain ⟨hpending, hreset, hbusy⟩ := hturn
    have hb : b = s.snap.blockIndex br bc := ((mem_availPut _ _ _).1 hafter).resolve_right hbefore
    refine ⟨hpending, hreset, hbusy, br, bc, hb, ?_⟩
    rcases hblock with (⟨rfl, -⟩ | ⟨rfl, hphase⟩) | (⟨rfl, -⟩ | ⟨rfl, hphase⟩)
    · exact .inl hdecode
    · exact .inr (.inr ⟨hphase, .inl hdecode⟩)
    · exact .inr (.inl hdecode)
    · exact .inr (.inr ⟨hphase, .inr hdecode⟩)

/-- Settles O59: the steps that do not keep or extend the map leave it empty. -/
theorem onlyTheseClearAvail : Obligations.OnlyTheseClearAvail := by
  intro s t b hstep hbefore hafter
  simp only [State.availBit, List.contains_eq_mem, decide_eq_true_eq, decide_eq_false_iff_not] at hbefore hafter
  rcases step_avail_cases s t hstep with h | ⟨h, hway⟩ | ⟨-, i, br, bc, -, -, h⟩ <;> rw [h] at hafter
  · exact absurd hbefore hafter
  · refine ⟨h, ?_⟩
    rcases hway with hreset | hwrite | ⟨⟨hpending, hreset, hbusy⟩, i, hdecode, rfl | ⟨hphase, rfl | rfl⟩⟩
    · exact .inl hreset
    · exact .inr (.inl hwrite)
    · exact .inr (.inr ⟨hpending, hreset, hbusy, .inl hdecode⟩)
    · exact .inr (.inr ⟨hpending, hreset, hbusy, .inr ⟨hphase, .inl hdecode⟩⟩)
    · exact .inr (.inr ⟨hpending, hreset, hbusy, .inr ⟨hphase, .inr hdecode⟩⟩)
  · exact absurd ((mem_availPut _ _ _).2 (.inr hbefore)) hafter

/-- Settles O60, by the frames of an engine turn and of a transaction. -/
theorem eachBufferHasItsWriter : Obligations.EachBufferHasItsWriter := by
  intro s t hstep
  rcases step_withHost_cases s t hstep with ⟨p, hturn, h⟩ | ⟨txn, rest, a, hp, -, rfl⟩ | ⟨rest, hp, rfl⟩ | ⟨rest, hp, rfl⟩
  · obtain ⟨hcapacity, horig⟩ := engineTurn_frame _ t h
    refine ⟨hcapacity, fun _ => horig, ?_⟩
    rintro ⟨txn, rest, hp⟩
    rcases hturn with h | ⟨rest, h⟩ <;> simp [hp] at h
  · obtain ⟨hcapacity, hrecon, havail⟩ := transact_frame (s.withHost rest s.answers) txn
    exact ⟨hcapacity, by simp [hp], fun _ => ⟨hrecon, havail.imp_right And.left⟩⟩
  · exact ⟨rfl, by simp [hp], by simp [hp]⟩
  · exact ⟨rfl, by simp [hp], by simp [hp]⟩

end Sys2Proof.Proofs
end

section
/-! SUPPORT. The stages of a sweep over one command step (rules R247, R249), the range of RECON (R41, R252) and the number of
steps a command has left (R341), for the invariants and for 70_reset_and_hazards.md. -/

namespace Sys2Proof.Machine

open Sys2Proof.Safety

/-! ### What a sound stage says (R247) -/

theorem sweepSound_of_idle {s : State} (h : s.phase = .idle) : sweepSound s = true := by
  simp [sweepSound, h]

theorem sweepSound_of_start {s : State} (h : s.phase = .start) : sweepSound s = true := by
  simp [sweepSound, h]

theorem sweepSound_validate_iff {s : State} {br bc : Nat} (h : s.phase = .validate br bc) :
    sweepSound s = true ↔ runsSweep s = true ∧ ConfigLegal s.snap s.capacity ∧ InGrid s.snap br bc ∧
      ContentPassesBefore s (s.snap.blockIndex br bc) := by
  simp only [sweepSound, h, Bool.and_eq_true, decide_eq_true_eq, and_assoc]

theorem sweepSound_clear_iff {s : State} (h : s.phase = .clear) :
    sweepSound s = true ↔ runsSweep s = true ∧ ConfigLegal s.snap s.capacity ∧
      ContentPassesBefore s (s.snap.brows * s.snap.bcols) := by
  simp only [sweepSound, h, Bool.and_eq_true, decide_eq_true_eq, and_assoc]

theorem sweepSound_process_iff {s : State} {br bc : Nat} (h : s.phase = .process br bc) :
    sweepSound s = true ↔ runsSweep s = true ∧ ConfigLegal s.snap s.capacity ∧ InGrid s.snap br bc ∧
      ContentPassesBefore s (s.snap.brows * s.snap.bcols) ∧ s.mem.avail = List.range (s.snap.blockIndex br bc) := by
  simp only [sweepSound, h, Bool.and_eq_true, decide_eq_true_eq, and_assoc]

/-! ### The grid of a legal plane -/

/-- A legal plane has at least one block: N divides W and H, and neither is 0 (R134). -/
theorem inGrid_origin {c : Snapshot} {p : Capacity} (h : ConfigLegal c p) : InGrid c 0 0 := by
  obtain ⟨-, hw, hh, hwn, hhn, -, -⟩ := h
  exact ⟨Nat.div_pos (Nat.le_of_dvd hh (Nat.dvd_of_mod_eq_zero hhn)) c.n_pos,
    Nat.div_pos (Nat.le_of_dvd hw (Nat.dvd_of_mod_eq_zero hwn)) c.n_pos⟩

theorem blockIndex_origin (c : Snapshot) : c.blockIndex 0 0 = 0 := by
  simp [Snapshot.blockIndex]

/-- VALIDATE goes to the next block, or to CLEAR after the last (R249). -/
theorem Snapshot.afterValidate_cases (c : Snapshot) (br bc : Nat) :
    (c.nextBlock br bc = none ∧ c.afterValidate br bc = .clear) ∨
    (∃ br' bc', c.nextBlock br bc = some (br', bc') ∧ c.afterValidate br bc = .validate br' bc') := by
  unfold Snapshot.afterValidate
  cases h : c.nextBlock br bc with
  | none => exact .inl ⟨rfl, rfl⟩
  | some p => exact .inr ⟨p.1, p.2, rfl, rfl⟩

/-! ### The content checks over a sweep (R245, R246) -/

theorem contentPasses_encp {s : State} (h : decode s.lastCmd = .ok .encp) (br bc : Nat) :
    contentPasses s br bc = true ↔ SamplesInRange s br bc := by
  simp [contentPasses, h]

theorem contentPasses_decp {s : State} (h : decode s.lastCmd = .ok .decp) (br bc : Nat) :
    contentPasses s br bc = true ↔ StoredModeAllowed s br bc ∧ CoefficientsInRange s br bc := by
  simp only [contentPasses, h, Bool.and_eq_true, decide_eq_true_eq]

/-- An ENCP checks ORIG, which its block steps leave (R40). -/
theorem contentPasses_encodeBlock {s : State} (h : decode s.lastCmd = .ok .encp) (br bc br' bc' : Nat) :
    contentPasses (s.encodeBlock br bc) br' bc' = contentPasses s br' bc' := by
  rw [Bool.eq_iff_iff, contentPasses_encp (s := s.encodeBlock br bc) h, contentPasses_encp h]
  exact Iff.rfl

/-- A DECP checks MODE and COEF, which its block steps leave (R244). -/
theorem contentPasses_decodeBlock {s : State} (h : decode s.lastCmd = .ok .decp) (br bc br' bc' : Nat) :
    contentPasses (s.decodeBlock br bc) br' bc' = contentPasses s br' bc' := by
  rw [Bool.eq_iff_iff, contentPasses_decp (s := s.decodeBlock br bc) h, contentPasses_decp h]
  exact Iff.rfl

/-- One more block that passes: the blocks before the next raster position pass. -/
theorem contentPassesBefore_succ {s : State} {br bc : Nat} (hbc : bc < s.snap.bcols)
    (hbefore : ContentPassesBefore s (s.snap.blockIndex br bc)) (hblock : contentPasses s br bc = true) :
    ContentPassesBefore s (s.snap.blockIndex br bc + 1) := by
  intro br' hbr' bc' hbc' hlt
  rcases Nat.lt_succ_iff_lt_or_eq.1 hlt with hlt | heq
  · exact hbefore br' hbr' bc' hbc' hlt
  · obtain ⟨rfl, rfl⟩ := blockIndex_inj s.snap hbc' hbc heq
    exact hblock

theorem runsSweep_of_decode {s : State} {i : Instr} (hdecode : decode s.lastCmd = .ok i) (hi : i = .encp ∨ i = .decp) :
    runsSweep s = true := by
  rcases hi with rfl | rfl <;> simp [runsSweep, hdecode]

/-! ### Each stage leads to a sound one (R247, R249) -/

section
variable {s : State} {br bc : Nat}

theorem sweepSound_start_step (hruns : runsSweep s = true) (hlegal : ConfigLegal s.snap s.capacity) :
    sweepSound { s with phase := .validate 0 0 } = true := by
  refine (sweepSound_validate_iff rfl).2 ⟨hruns, hlegal, inGrid_origin hlegal, ?_⟩
  intro br' _ bc' _ hlt
  rw [blockIndex_origin] at hlt
  exact absurd hlt (Nat.not_lt_zero _)

theorem sweepSound_validate_step (hs : sweepSound s = true) (hphase : s.phase = .validate br bc)
    (hblock : contentPasses s br bc = true) : sweepSound { s with phase := s.snap.afterValidate br bc } = true := by
  obtain ⟨hruns, hlegal, hgrid, hbefore⟩ := (sweepSound_validate_iff hphase).1 hs
  have hnext := contentPassesBefore_succ hgrid.2 hbefore hblock
  rcases s.snap.afterValidate_cases br bc with ⟨hnone, hafter⟩ | ⟨br', bc', hsome, hafter⟩ <;> rw [hafter]
  · rw [nextBlock_none s.snap hgrid.1 hgrid.2 hnone] at hnext
    exact (sweepSound_clear_iff rfl).2 ⟨hruns, hlegal, hnext⟩
  · obtain ⟨hindex, hgrid'⟩ := nextBlock_spec s.snap hgrid.1 hgrid.2 hsome
    rw [← hindex] at hnext
    exact (sweepSound_validate_iff rfl).2 ⟨hruns, hlegal, hgrid', hnext⟩

theorem sweepSound_clear_step (hs : sweepSound s = true) (hphase : s.phase = .clear) :
    sweepSound { s.clearAvail with phase := .process 0 0 } = true := by
  obtain ⟨hruns, hlegal, hbefore⟩ := (sweepSound_clear_iff hphase).1 hs
  refine (sweepSound_process_iff rfl).2 ⟨hruns, hlegal, inGrid_origin hlegal, hbefore, ?_⟩
  rw [show ({ s.clearAvail with phase := .process 0 0 } : State).snap = s.snap from rfl, blockIndex_origin]
  rfl

/-- A block step that leaves the command, the configuration and the content and sets its own bit keeps the stage sound. -/
theorem sweepSound_process_step {u : State} (hs : sweepSound s = true) (hphase : s.phase = .process br bc)
    (hcmd : u.lastCmd = s.lastCmd) (hsnap : u.snap = s.snap) (hcapacity : u.capacity = s.capacity)
    (hcontent : ∀ br' bc', contentPasses u br' bc' = contentPasses s br' bc')
    (havail : u.mem.avail = availPut s.mem.avail (s.snap.blockIndex br bc)) :
    sweepSound (u.afterProcess br bc) = true := by
  obtain ⟨hruns, hlegal, hgrid, hbefore, hrange⟩ := (sweepSound_process_iff hphase).1 hs
  rcases u.afterProcess_cases br bc with ⟨-, hafter⟩ | ⟨br', bc', hsome, hafter⟩ <;> rw [hafter]
  · exact sweepSound_of_idle rfl
  · rw [hsnap] at hsome
    obtain ⟨hindex, hgrid'⟩ := nextBlock_spec s.snap hgrid.1 hgrid.2 hsome
    refine (sweepSound_process_iff rfl).2 ⟨?_, ?_, ?_, ?_, ?_⟩
    · show runsSweep u = true
      rw [runsSweep, hcmd]
      exact hruns
    · show ConfigLegal u.snap u.capacity
      rw [hsnap, hcapacity]
      exact hlegal
    · show InGrid u.snap br' bc'
      rw [hsnap]
      exact hgrid'
    · show ContentPassesBefore u (u.snap.brows * u.snap.bcols)
      simp only [ContentPassesBefore, hcontent, hsnap]
      exact hbefore
    · show u.mem.avail = List.range (u.snap.blockIndex br' bc')
      rw [havail, hrange, hsnap, hindex, availPut_range]

end

/-- A command step keeps every sweep stage sound. -/
theorem exec_sweepSound (i : Instr) (s t : State) (hs : sweepSound s = true) (hdecode : decode s.lastCmd = .ok i)
    (h : exec i s = .next t) : sweepSound t = true := by
  rcases exec_cases i s t h with ⟨f, rfl⟩ | ⟨-, rfl⟩ | ⟨-, rfl⟩ | ⟨br, bc, -, -, -, -, -, rfl⟩ |
    ⟨br, bc, -, -, -, -, -, -, -, rfl⟩ | ⟨br, bc, -, -, -, -, rfl⟩ | ⟨br, bc, -, -, -, -, rfl⟩ |
    ⟨hi, -, hlegal, rfl⟩ | ⟨br, bc, hi, hphase, rfl⟩ | ⟨-, hphase, rfl⟩ |
    ⟨br, bc, hphase, -, ⟨rfl, -, rfl⟩ | ⟨rfl, -, -, rfl⟩⟩
  case inr.inr.inr.inr.inr.inr.inr.inl => exact sweepSound_start_step (runsSweep_of_decode hdecode hi) hlegal
  case inr.inr.inr.inr.inr.inr.inr.inr.inl =>
    refine sweepSound_validate_step hs hphase ?_
    rcases hi with ⟨rfl, hsamples⟩ | ⟨rfl, hmode, hcoef⟩
    · exact (contentPasses_encp hdecode br bc).2 hsamples
    · exact (contentPasses_decp hdecode br bc).2 ⟨hmode, hcoef⟩
  case inr.inr.inr.inr.inr.inr.inr.inr.inr.inl => exact sweepSound_clear_step hs hphase
  case inr.inr.inr.inr.inr.inr.inr.inr.inr.inr.inl =>
    exact sweepSound_process_step hs hphase rfl rfl rfl (contentPasses_encodeBlock hdecode br bc) rfl
  case inr.inr.inr.inr.inr.inr.inr.inr.inr.inr.inr =>
    exact sweepSound_process_step hs hphase rfl rfl rfl (contentPasses_decodeBlock hdecode br bc) rfl
  all_goals exact sweepSound_of_idle rfl

/-! ### The snapshot and the stages as one step invariant (R49, R247) -/

theorem liveConfig_of_hostSideKept {s t : State} (h : HostSideKept s t) : t.liveConfig = s.liveConfig := by
  obtain ⟨hctrl, hplane, hwidth, hheight, hgeom, -⟩ := h
  simp only [State.liveConfig, hctrl, hplane, hwidth, hheight, hgeom]

/-- The snapshot equals the live registers while a command runs, and the stage is sound. -/
def RunSound (s : State) : Prop := SnapshotCurrent s ∧ sweepSound s = true

theorem runSound_of_idle {s : State} (h : s.phase = .idle) : RunSound s :=
  ⟨fun hbusy => absurd h (s.busy_eq_true_iff.1 hbusy), sweepSound_of_idle h⟩

theorem exec_runSound (i : Instr) (s t : State) (hs : RunSound s) (hbusy : s.busy = true)
    (hdecode : decode s.lastCmd = .ok i) (h : exec i s = .next t) : RunSound t := by
  have hkept := exec_hostSideKept i s t h
  refine ⟨fun _ => ?_, exec_sweepSound i s t hs.2 hdecode h⟩
  rw [exec_snap i s t h, liveConfig_of_hostSideKept hkept]
  exact hs.1 hbusy

/-- While a command runs the configuration is frozen (R79); in IDLE nothing is claimed but of an acceptance, which takes
the snapshot. -/
theorem writeRegister_runSound (s : State) (offset : Nat) (v : Word) (hs : RunSound s) :
    RunSound (s.writeRegister offset v) := by
  rcases writeRegister_cases s offset v with
    h | h | ⟨-, hidle, h⟩ | ⟨-, hidle, h⟩ | ⟨-, hidle, h⟩ | ⟨-, hidle, h⟩ | ⟨-, hidle, h⟩ | ⟨-, -, -, h⟩ | ⟨-, h⟩ <;>
    rw [h]
  case inr.inr.inr.inr.inr.inr.inr.inl => exact ⟨fun _ => rfl, sweepSound_of_start rfl⟩
  case inr.inr.inr.inr.inr.inr.inr.inr =>
    rw [State.writeStatus_eq]
    exact hs
  case inl | inr.inl => exact hs
  all_goals exact runSound_of_idle (s.busy_eq_false_iff.1 hidle)

theorem runSound_stepInvariant : StepInvariant RunSound where
  host _ _ _ hs := hs
  badCmd _ _ _ := runSound_of_idle rfl
  exec := exec_runSound
  writeRegister := writeRegister_runSound
  writeCell s win k v t _ hidle ht := by
    rw [(s.writeCell_frame t ht).1]
    exact runSound_of_idle (s.busy_eq_false_iff.1 hidle)
  assertReset _ _ := runSound_of_idle rfl
  releaseReset _ hs := hs

/-! ### RECON stays in range (R41, R252) -/

/-- A value of 0 … SMAX fits a RECON cell. -/
theorem ofInt16_toNat {v : Int} (h0 : 0 ≤ v) (h : v < 65536) : ((BitVec.ofInt 16 v).toNat : Int) = v := by
  rw [BitVec.toNat_ofInt, Int.toNat_of_nonneg (Int.emod_nonneg _ (by decide))]
  exact Int.emod_eq_of_lt h0 h

theorem State.reconstruct_cell_le (s : State) (p r : Block) {i j : Nat} (hi : i < s.snap.n) (hj : j < s.snap.n) :
    ((BitVec.ofInt 16 (blockAt (s.reconstruct p r) i j)).toNat : Int) ≤ s.snap.smax := by
  have hsmax := s.snap.smax_cases
  rw [s.reconstruct_at p r hi hj, ofInt16_toNat (by omega) (by omega)]
  omega

/-- Samples of available blocks in range, by the configuration `c` (R41). -/
def ReconInRangeFor (c : Snapshot) (s : State) : Prop :=
  ∀ br < c.brows, ∀ bc < c.bcols, s.availBit (c.blockIndex br bc) = true →
    ∀ i < c.n, ∀ j < c.n, ((s.reconCell (c.cellIndex br bc i j)).toNat : Int) ≤ c.smax

theorem reconInRange_iff (s : State) : ReconInRange s ↔ ReconInRangeFor s.liveConfig s := Iff.rfl

theorem reconInRangeFor_of_unavailable {c : Snapshot} {s : State} (h : s.mem.avail = []) : ReconInRangeFor c s := by
  intro br _ bc _ havail
  simp [State.availBit, h] at havail

theorem reconInRangeFor_of_kept {c : Snapshot} {s t : State} (hresets : t.resets = s.resets)
    (hrecon : t.mem.recon = s.mem.recon) (havail : t.mem.avail = s.mem.avail) (hs : ReconInRangeFor c s) :
    ReconInRangeFor c t := by
  simpa only [ReconInRangeFor, State.availBit, State.reconCell, hresets, hrecon, havail] using hs

/-- A block step whose block is in range keeps the range: its cells are those of no other block (R135). -/
theorem reconInRangeFor_of_block {c : Snapshot} {s t : State} {br bc : Nat} (hbc : bc < c.bcols)
    (havail : ∀ b, t.availBit b = true ↔ b = c.blockIndex br bc ∨ s.availBit b = true)
    (hblock : ∀ i < c.n, ∀ j < c.n, ((t.reconCell (c.cellIndex br bc i j)).toNat : Int) ≤ c.smax)
    (hother : ∀ k, ¬InBlock c br bc k → t.reconCell k = s.reconCell k) (hs : ReconInRangeFor c s) :
    ReconInRangeFor c t := by
  intro br' hbr' bc' hbc' hbit i hi j hj
  by_cases hsame : br' = br ∧ bc' = bc
  · obtain ⟨rfl, rfl⟩ := hsame
    exact hblock i hi j hj
  · have hindex : c.blockIndex br' bc' ≠ c.blockIndex br bc := mt (blockIndex_inj c hbc' hbc) hsame
    have hcell : ¬InBlock c br bc (c.cellIndex br' bc' i j) :=
      not_inBlock_of_ne c hbc hbc' (fun h => hsame ⟨h.1.symm, h.2.symm⟩) hi hj
    rw [hother _ hcell]
    exact hs br' hbr' bc' hbc' (((havail _).1 hbit).resolve_left hindex) i hi j hj

/-- Every block step is one of a block of the grid: a block command's checks say so, or the sound stage. -/
theorem EncodesBlock.inGrid {i : Instr} {s : State} {br bc : Nat} (h : EncodesBlock i s br bc)
    (hs : sweepSound s = true) : InGrid s.snap br bc := by
  rcases h with ⟨-, hgrid⟩ | ⟨-, hphase⟩
  · exact hgrid
  · exact ((sweepSound_process_iff hphase).1 hs).2.2.1

theorem DecodesBlock.inGrid {i : Instr} {s : State} {br bc : Nat} (h : DecodesBlock i s br bc)
    (hs : sweepSound s = true) : InGrid s.snap br bc := by
  rcases h with ⟨-, hgrid⟩ | ⟨-, hphase⟩
  · exact hgrid
  · exact ((sweepSound_process_iff hphase).1 hs).2.2.1

theorem exec_reconInRangeFor (i : Instr) (s t : State) (hsound : sweepSound s = true)
    (hs : ReconInRangeFor s.snap s) (h : exec i s = .next t) : ReconInRangeFor s.snap t := by
  obtain ⟨-, -, -, -, -, -, -, -, -, hresets, -⟩ := exec_hostSideKept i s t h
  have same {u : State} (hu : u.resets = s.resets) (hmem : t.mem = u.mem) (hrange : ReconInRangeFor s.snap u) :
      ReconInRangeFor s.snap t :=
    reconInRangeFor_of_kept (hresets.trans hu.symm) (by rw [hmem]) (by rw [hmem]) hrange
  rcases exec_mem_cases i s t h with
    hmem | ⟨-, hmem⟩ | ⟨br, bc, hi, hmem⟩ | ⟨br, bc, hi, hmem⟩ | ⟨br, bc, hmem⟩ | ⟨br, bc, hmem⟩
  · exact same rfl hmem hs
  · exact reconInRangeFor_of_unavailable (by rw [hmem]; rfl)
  · have hbc := (hi.inGrid hsound).2
    refine same (u := s.encodeBlock br bc) rfl hmem (reconInRangeFor_of_block hbc
      (s.encodeBlock_availBit br bc) (fun i hi j hj => ?_) (fun k => s.encodeBlock_reconCell_other) hs)
    rw [s.encodeBlock_reconCell hbc hi hj]
    exact s.reconstruct_cell_le _ _ hi hj
  · have hbc := (hi.inGrid hsound).2
    refine same (u := s.decodeBlock br bc) rfl hmem (reconInRangeFor_of_block hbc
      (s.decodeBlock_availBit br bc) (fun i hi j hj => ?_) (fun k => s.decodeBlock_reconCell_other) hs)
    rw [s.decodeBlock_reconCell hbc hi hj]
    exact s.reconstruct_cell_le _ _ hi hj
  · exact same (u := s.forwardBlock br bc) rfl hmem hs
  · exact same (u := s.inverseBlock br bc) rfl hmem hs

/-- A write to CTRL or GEOM leaves the grid and the depth; one to PLANE, WIDTH or HEIGHT clears AVAIL (R46). -/
theorem writeRegister_reconInRange (s : State) (offset : Nat) (v : Word) (hs : ReconInRange s) :
    ReconInRange (s.writeRegister offset v) := by
  rcases writeRegister_cases s offset v with
    h | h | ⟨-, -, h⟩ | ⟨-, -, h⟩ | ⟨-, -, h⟩ | ⟨-, -, h⟩ | ⟨-, -, h⟩ | ⟨-, -, -, h⟩ | ⟨-, h⟩ <;> rw [h]
  case inr.inr.inr.inl | inr.inr.inr.inr.inl | inr.inr.inr.inr.inr.inl => exact reconInRangeFor_of_unavailable rfl
  case inr.inr.inr.inr.inr.inr.inr.inr =>
    rw [State.writeStatus_eq]
    exact hs
  all_goals exact hs

/-- The range of RECON, carried with the sound stage, which puts each block step in the grid. -/
def RunInRange (s : State) : Prop := RunSound s ∧ ReconInRange s

theorem runInRange_stepInvariant : StepInvariant RunInRange where
  host _ _ _ hs := hs
  badCmd s hs hbusy := ⟨runSound_stepInvariant.badCmd s hs.1 hbusy, hs.2⟩
  exec i s t hs hbusy hdecode h := by
    refine ⟨exec_runSound i s t hs.1 hbusy hdecode h, ?_⟩
    have hcurrent := hs.1.1 hbusy
    have hrange := hs.2
    rw [reconInRange_iff, ← hcurrent] at hrange
    rw [reconInRange_iff, liveConfig_of_hostSideKept (exec_hostSideKept i s t h), ← hcurrent]
    exact exec_reconInRangeFor i s t hs.1.2 hrange h
  writeRegister s offset v hs := ⟨writeRegister_runSound s offset v hs.1, writeRegister_reconInRange s offset v hs.2⟩
  writeCell s win k v t hs hidle ht := by
    refine ⟨runSound_stepInvariant.writeCell s win k v t hs.1 hidle ht, ?_⟩
    obtain ⟨hframe, hrecon, havail⟩ := s.writeCell_frame t ht
    have hlive : t.liveConfig = s.liveConfig := by rw [hframe]; rfl
    have hresets : t.resets = s.resets := by rw [hframe]
    rw [reconInRange_iff, hlive]
    exact reconInRangeFor_of_kept hresets hrecon havail hs.2
  assertReset _ _ := ⟨runSound_of_idle rfl, reconInRangeFor_of_unavailable rfl⟩
  releaseReset _ hs := hs

/-! ### The steps a command has left (R341) -/

/-- The most steps a command has left in a stage, on a grid of B blocks: START, B checks, CLEAR and B block steps. -/
def stepsLeft (c : Snapshot) : Phase → Nat
  | .idle => 0
  | .start => 2 * (c.brows * c.bcols) + 2
  | .validate br bc => 2 * (c.brows * c.bcols) + 1 - c.blockIndex br bc
  | .clear => c.brows * c.bcols + 1
  | .process br bc => c.brows * c.bcols - c.blockIndex br bc

/-- How a command step changes the phase: it ends the command, or goes on to the next stage or block. -/
theorem exec_phase_cases (i : Instr) (s t : State) (h : exec i s = .next t) :
    (t.phase = .idle ∧ (t.status.done = true ∨ t.status.err = true)) ∨
    ((s.phase = .idle ∨ s.phase = .start) ∧ t.phase = .validate 0 0) ∨
    (∃ br bc, s.phase = .validate br bc ∧ t.phase = s.snap.afterValidate br bc) ∨
    (s.phase = .clear ∧ t.phase = .process 0 0) ∨
    (∃ br bc br' bc', s.phase = .process br bc ∧ s.snap.nextBlock br bc = some (br', bc') ∧
      t.phase = .process br' bc') := by
  have process (u : State) (br bc : Nat) (hsnap : u.snap = s.snap) :
      ((u.afterProcess br bc).phase = .idle ∧ (u.afterProcess br bc).status.done = true) ∨
      (∃ br' bc', s.snap.nextBlock br bc = some (br', bc') ∧ (u.afterProcess br bc).phase = .process br' bc') := by
    rcases u.afterProcess_cases br bc with ⟨-, h⟩ | ⟨br', bc', hnext, h⟩ <;> rw [h]
    · exact .inl ⟨rfl, rfl⟩
    · exact .inr ⟨br', bc', hsnap ▸ hnext, rfl⟩
  rcases exec_cases i s t h with ⟨f, rfl⟩ | ⟨-, rfl⟩ | ⟨-, rfl⟩ | ⟨br, bc, -, -, -, -, -, rfl⟩ |
    ⟨br, bc, -, -, -, -, -, -, -, rfl⟩ | ⟨br, bc, -, -, -, -, rfl⟩ | ⟨br, bc, -, -, -, -, rfl⟩ |
    ⟨-, hphase, -, rfl⟩ | ⟨br, bc, -, hphase, rfl⟩ | ⟨-, hphase, rfl⟩ |
    ⟨br, bc, hphase, -, ⟨-, -, rfl⟩ | ⟨-, -, -, rfl⟩⟩
  · exact .inl ⟨rfl, .inr rfl⟩
  case inr.inr.inr.inr.inr.inr.inr.inl => exact .inr (.inl ⟨hphase, rfl⟩)
  case inr.inr.inr.inr.inr.inr.inr.inr.inl => exact .inr (.inr (.inl ⟨br, bc, hphase, rfl⟩))
  case inr.inr.inr.inr.inr.inr.inr.inr.inr.inl => exact .inr (.inr (.inr (.inl ⟨hphase, rfl⟩)))
  case inr.inr.inr.inr.inr.inr.inr.inr.inr.inr.inl =>
    rcases process (s.encodeBlock br bc) br bc rfl with ⟨hidle, hdone⟩ | ⟨br', bc', hnext, ht⟩
    · exact .inl ⟨hidle, .inl hdone⟩
    · exact .inr (.inr (.inr (.inr ⟨br, bc, br', bc', hphase, hnext, ht⟩)))
  case inr.inr.inr.inr.inr.inr.inr.inr.inr.inr.inr =>
    rcases process (s.decodeBlock br bc) br bc rfl with ⟨hidle, hdone⟩ | ⟨br', bc', hnext, ht⟩
    · exact .inl ⟨hidle, .inl hdone⟩
    · exact .inr (.inr (.inr (.inr ⟨br, bc, br', bc', hphase, hnext, ht⟩)))
  all_goals exact .inl ⟨rfl, .inl rfl⟩

theorem stepsLeft_le (s : State) : stepsLeft s.snap s.phase ≤ 2 * (s.snap.brows * s.snap.bcols) + 2 := by
  cases s.phase <;> simp only [stepsLeft] <;> omega

/-- A running command in a sound stage has at least one step left. -/
theorem stepsLeft_pos {s : State} (hs : sweepSound s = true) (hbusy : s.busy = true) :
    0 < stepsLeft s.snap s.phase := by
  rw [s.busy_eq_true_iff] at hbusy
  cases hphase : s.phase with
  | idle => exact absurd hphase hbusy
  | start => simp [stepsLeft]
  | clear => simp [stepsLeft]
  | validate br bc =>
    obtain ⟨-, -, hgrid, -⟩ := (sweepSound_validate_iff hphase).1 hs
    have := blockIndex_lt s.snap hgrid.1 hgrid.2
    simp only [stepsLeft]
    omega
  | process br bc =>
    obtain ⟨-, -, hgrid, -⟩ := (sweepSound_process_iff hphase).1 hs
    have := blockIndex_lt s.snap hgrid.1 hgrid.2
    simp only [stepsLeft]
    omega

/-- A command step from a sound stage ends the command or leaves fewer steps. -/
theorem exec_stepsLeft (i : Instr) (s t : State) (hs : sweepSound s = true) (hbusy : s.busy = true)
    (h : exec i s = .next t) :
    (t.busy = false ∧ (t.status.done = true ∨ t.status.err = true)) ∨
      (t.busy = true ∧ stepsLeft t.snap t.phase < stepsLeft s.snap s.phase) := by
  have running {p : Phase} (hp : t.phase = p) (hne : p ≠ .idle) (hlt : stepsLeft s.snap p < stepsLeft s.snap s.phase) :
      t.busy = true ∧ stepsLeft t.snap t.phase < stepsLeft s.snap s.phase := by
    rw [exec_snap i s t h, hp]
    exact ⟨t.busy_eq_true_iff.2 (hp ▸ hne), hlt⟩
  rcases exec_phase_cases i s t h with ⟨hidle, hend⟩ | ⟨hphase, ht⟩ | ⟨br, bc, hphase, ht⟩ | ⟨hphase, ht⟩ |
    ⟨br, bc, br', bc', hphase, hnext, ht⟩
  · exact .inl ⟨t.busy_eq_false_iff.2 hidle, hend⟩
  · have hstart := hphase.resolve_left (s.busy_eq_true_iff.1 hbusy)
    refine .inr (running ht nofun ?_)
    simp only [hstart, stepsLeft]
    omega
  · obtain ⟨-, -, hgrid, -⟩ := (sweepSound_validate_iff hphase).1 hs
    have := blockIndex_lt s.snap hgrid.1 hgrid.2
    rcases s.snap.afterValidate_cases br bc with ⟨-, hafter⟩ | ⟨br', bc', hnext, hafter⟩ <;> rw [hafter] at ht
    · refine .inr (running ht nofun ?_)
      simp only [hphase, stepsLeft]
      omega
    · have := (nextBlock_spec s.snap hgrid.1 hgrid.2 hnext).1
      refine .inr (running ht nofun ?_)
      simp only [hphase, stepsLeft]
      omega
  · refine .inr (running ht nofun ?_)
    simp only [hphase, stepsLeft]
    omega
  · obtain ⟨-, -, hgrid, -⟩ := (sweepSound_process_iff hphase).1 hs
    have := blockIndex_lt s.snap hgrid.1 hgrid.2
    have := (nextBlock_spec s.snap hgrid.1 hgrid.2 hnext).1
    refine .inr (running ht nofun ?_)
    simp only [hphase, stepsLeft]
    omega

theorem State.after_succ_of_step {s t : State} (h : step s = .next t) (k : Nat) : s.after (k + 1) = t.after k := by
  simp [State.after, h]

/-- The engine alone ends a running command within its steps left (R131, R341). -/
theorem State.completes_within (s : State) (n : Nat) (hn : stepsLeft s.snap s.phase ≤ n) (hs : sweepSound s = true)
    (hbusy : s.busy = true) (hreset : s.resetLine = false) (hscript : s.pending = []) :
    ∃ k t, k ≤ n ∧ s.after k = some t ∧ t.busy = false ∧ (t.status.done = true ∨ t.status.err = true) := by
  induction n generalizing s with
  | zero => exact absurd (stepsLeft_pos hs hbusy) (by omega)
  | succ n ih =>
    have hstep := step_of_empty s hscript
    cases hdecode : decode s.lastCmd with
    | error e =>
      rw [s.engineTurn_illegal hreset hbusy hdecode] at hstep
      exact ⟨1, _, by omega, s.after_succ_of_step hstep 0, rfl, .inr rfl⟩
    | ok i =>
      obtain ⟨t, hexec⟩ := exec_next i s
      rw [s.engineTurn_runs hreset hbusy hdecode, hexec] at hstep
      rcases exec_stepsLeft i s t hs hbusy hexec with ⟨hidle, hend⟩ | ⟨hrun, hlt⟩
      · exact ⟨1, t, by omega, s.after_succ_of_step hstep 0, hidle, hend⟩
      · obtain ⟨-, -, -, -, -, -, -, -, hreset', -, hscript', -⟩ := exec_hostSideKept i s t hexec
        obtain ⟨k, u, hk, hafter, hend⟩ := ih t (by omega) (exec_sweepSound i s t hs hdecode hexec) hrun
          (hreset'.trans hreset) (hscript'.trans hscript)
        exact ⟨k + 1, u, by omega, (s.after_succ_of_step hstep k).trans hafter, hend⟩

end Sys2Proof.Machine

namespace Sys2Proof.Proofs

open Sys2Proof.Machine

/-- Settles O9: each step of a sound stage ends the command or leaves fewer steps, of which there are at most
2·BROWS·BCOLS + 2. -/
theorem everyCommandCompletes : Obligations.EveryCommandCompletes := fun s hs hbusy hreset hscript =>
  s.completes_within _ (stepsLeft_le s) hs hbusy hreset hscript

/-- Settles O55: the stages lead to sound stages, and the configuration is frozen while a command runs. -/
theorem sweepsStaySound : Obligations.SweepsStaySound :=
  fun _ _ hcurrent hsound => runSound_stepInvariant.step ⟨hcurrent, hsound⟩

/-- Settles O56: a block step clips its own block to 0 … SMAX and leaves the cells of every other block. -/
theorem reconStaysInRange : Obligations.ReconStaysInRange :=
  fun _ _ hcurrent hsound hrange hstep => (runInRange_stepInvariant.step ⟨⟨hcurrent, hsound⟩, hrange⟩ hstep).2

/-- Settles O57: the registers are 0, nothing runs, and no block is available. -/
theorem resetStateIsSound : Obligations.ResetStateIsSound :=
  ⟨State.reset_mem_wf, by decide, by decide, nofun, sweepSound_of_idle rfl, reconInRangeFor_of_unavailable rfl, by decide⟩

end Sys2Proof.Proofs
end

section
/-! SUPPORT. The metric and the selection in general (rules R168, R169), the ranges of predictions, residuals, coefficients
and inverse residuals (R160, R166, R207, R208), what the encoder reads (R172), and the lossless in-loop reconstruction and
its decoder (R173, R250), for the statements of 41_intra_predictor.md to 43_reconstruction.md. -/

namespace Sys2Proof.Machine

open Sys2Proof.Safety Matrix

/-! ### The metric (R168) -/

theorem State.candidateEnergy_eq_sum (s : State) (br bc : Nat) (m : PredMode) :
    s.candidateEnergy br bc m = ∑ i ∈ Finset.range s.snap.n, ∑ j ∈ Finset.range s.snap.n,
      energyTerm s.snap.metric
        (((s.origCell (s.snap.cellIndex br bc i j)).toNat : Int) - blockAt (s.prediction m br bc) i j) := by
  rw [State.candidateEnergy, energy_eq_sum]
  refine Finset.sum_congr rfl fun i hi => Finset.sum_congr rfl fun j hj => ?_
  rw [s.candidateResidual_at m br bc (Finset.mem_range.1 hi) (Finset.mem_range.1 hj)]

/-- A residual within ±1023 contributes at most 1023² under either metric. -/
theorem energyTerm_le {ssd : Bool} {v : Int} (h : |v| ≤ 1023) : energyTerm ssd v ≤ 1046529 := by
  cases ssd
  · exact h.trans (by decide)
  · obtain ⟨hlo, hhi⟩ := abs_le.1 h
    show v * v ≤ 1046529
    nlinarith

theorem energy_le (ssd : Bool) {n : Nat} {r : Block} (hn : n ≤ 16) (hr : ∀ i < n, ∀ j < n, |blockAt r i j| ≤ 1023) :
    energy ssd n r ≤ 267911424 := by
  have hrow : ∀ i ∈ Finset.range n, ∑ j ∈ Finset.range n, energyTerm ssd (blockAt r i j) ≤ n • 1046529 := by
    intro i hi
    have := Finset.sum_le_card_nsmul (Finset.range n) (fun j => energyTerm ssd (blockAt r i j)) 1046529
      fun j hj => energyTerm_le (hr i (Finset.mem_range.1 hi) j (Finset.mem_range.1 hj))
    rwa [Finset.card_range] at this
  have hall := Finset.sum_le_card_nsmul (Finset.range n) _ _ hrow
  rw [energy_eq_sum]
  rw [Finset.card_range] at hall
  refine hall.trans ?_
  interval_cases n <;> decide

/-! ### Selection (R169) -/

/-- `b` is the earliest element of `l` whose metric is the minimum. -/
def EarliestMin (e : PredMode → Int) (l : List PredMode) (b : PredMode) : Prop :=
  ∃ pre post, l = pre ++ b :: post ∧ (∀ m ∈ pre, e b < e m) ∧ (∀ m ∈ post, e b ≤ e m)

theorem EarliestMin.le {e : PredMode → Int} {l : List PredMode} {b m : PredMode} (h : EarliestMin e l b) (hm : m ∈ l) :
    e b ≤ e m := by
  obtain ⟨pre, post, rfl, hpre, hpost⟩ := h
  rcases List.mem_append.1 hm with hm | hm
  · exact (hpre m hm).le
  · rcases List.mem_cons.1 hm with rfl | hm
    · exact le_rfl
    · exact hpost m hm

/-- A candidate above the minimum may stand in front of the list. -/
theorem EarliestMin.cons_of_lt {e : PredMode → Int} {l : List PredMode} {b m : PredMode} (h : EarliestMin e l b)
    (hm : e b < e m) : EarliestMin e (m :: l) b := by
  obtain ⟨pre, post, rfl, hpre, hpost⟩ := h
  exact ⟨m :: pre, post, rfl, List.forall_mem_cons.2 ⟨hm, hpre⟩, hpost⟩

/-- A candidate not below the first may be inserted after it. -/
theorem EarliestMin.insert_second {e : PredMode → Int} {l : List PredMode} {b m x : PredMode}
    (h : EarliestMin e (m :: l) b) (hx : e m ≤ e x) : EarliestMin e (m :: x :: l) b := by
  obtain ⟨pre, post, hl, hpre, hpost⟩ := h
  cases pre with
  | nil =>
    obtain ⟨rfl, rfl⟩ := List.cons.inj hl
    exact ⟨[], x :: l, rfl, hpre, List.forall_mem_cons.2 ⟨hx, hpost⟩⟩
  | cons p pre =>
    obtain ⟨rfl, rfl⟩ := List.cons.inj hl
    obtain ⟨hm, hpre⟩ := List.forall_mem_cons.1 hpre
    exact ⟨m :: x :: pre, post, rfl, List.forall_mem_cons.2 ⟨hm, List.forall_mem_cons.2 ⟨hm.trans_le hx, hpre⟩⟩, hpost⟩

/-- The fold over the candidates keeps the earliest minimum. -/
theorem selectMode_earliestMin (e : PredMode → Int) (m : PredMode) (rest : List PredMode) :
    EarliestMin e (m :: rest) (selectMode e (m :: rest)) := by
  induction rest generalizing m with
  | nil => exact ⟨[], [], rfl, nofun, nofun⟩
  | cons x rest ih =>
    by_cases hx : e x < e m
    · rw [selectMode_second e rest hx]
      exact (ih x).cons_of_lt (((ih x).le List.mem_cons_self).trans_lt hx)
    · have hdrop : selectMode e (m :: x :: rest) = selectMode e (m :: rest) := by
        simp only [selectMode, List.foldl_cons, if_neg hx]
      rw [hdrop]
      exact (ih m).insert_second (not_lt.1 hx)

/-- The three candidates of an interior block, compared in the preference order. -/
theorem State.selectedMode_interior (s : State) {br bc : Nat} (hbr : 0 < br) (hbc : 0 < bc) :
    s.selectedMode br bc =
      if s.candidateEnergy br bc .vertical < s.candidateEnergy br bc .diagonal then
        if s.candidateEnergy br bc .horizontal < s.candidateEnergy br bc .vertical then .horizontal else .vertical
      else if s.candidateEnergy br bc .horizontal < s.candidateEnergy br bc .diagonal then .horizontal else .diagonal := by
  rw [State.selectedMode, candidates_interior hbr hbc]
  simp only [selectMode, List.foldl_cons, List.foldl_nil]
  split <;> rfl

/-- The selected mode is one the decoder allows at the position (R165, R241). -/
theorem State.selectedMode_allowed (s : State) (br bc : Nat) : TagAllowed br bc (s.selectedMode br bc) := by
  rcases Nat.eq_zero_or_pos br with rfl | hbr <;> rcases Nat.eq_zero_or_pos bc with rfl | hbc
  · exact .inl ⟨rfl, rfl, s.selectedMode_corner⟩
  · exact .inr (.inl ⟨rfl, hbc, s.selectedMode_firstRow hbc⟩)
  · exact .inr (.inr (.inl ⟨hbr, rfl, s.selectedMode_firstColumn hbr⟩))
  · refine .inr (.inr (.inr ⟨hbr, hbc, ?_⟩))
    rw [s.selectedMode_interior hbr hbc]
    split <;> split <;> nofun

/-! ### What the encoder reads (R172) -/

/-- Two states that agree on the configuration's part, the block's samples and the neighbours. -/
structure SameView (s u : State) (br bc : Nat) : Prop where
  n : u.snap.n = s.snap.n
  metric : u.snap.metric = s.snap.metric
  orig : u.origBlock br bc = s.origBlock br bc
  neighbours : u.neighbours br bc = s.neighbours br bc

section
variable {s u : State} {br bc : Nat}

theorem prediction_congr (hn : u.snap.n = s.snap.n) (hneighbours : u.neighbours br bc = s.neighbours br bc)
    (m : PredMode) : u.prediction m br bc = s.prediction m br bc := by
  simp only [State.prediction, hn, hneighbours]

theorem SameView.candidateResidual (h : SameView s u br bc) (m : PredMode) :
    u.candidateResidual br bc m = s.candidateResidual br bc m := by
  simp only [State.candidateResidual, h.n, h.orig, prediction_congr h.n h.neighbours]

theorem SameView.selectedMode (h : SameView s u br bc) : u.selectedMode br bc = s.selectedMode br bc := by
  have henergy : u.candidateEnergy br bc = s.candidateEnergy br bc := by
    funext m
    simp only [State.candidateEnergy, h.n, h.metric, h.candidateResidual]
  simp only [State.selectedMode, henergy]

theorem SameView.encodeResidual (h : SameView s u br bc) : u.encodeResidual br bc = s.encodeResidual br bc := by
  simp only [State.encodeResidual, h.selectedMode, h.candidateResidual]

theorem SameView.encodeCoefficients (h : SameView s u br bc) :
    u.encodeCoefficients br bc = s.encodeCoefficients br bc := by
  simp only [State.encodeCoefficients, h.n, h.encodeResidual]

end

/-! ### Bounds of the transforms (R207, R208) -/

/-- A value strictly below `2^s·v` plus half a unit rounds to `v` at most. -/
theorem abs_rnd_le {a v : Int} {s : Nat} (hs : 1 ≤ s) (h : |a| < 2 ^ s * v + 2 ^ (s - 1)) : |rnd a s| ≤ v := by
  obtain ⟨hlo, hhi⟩ := abs_lt.1 h
  have hle := rnd_mul_le a s
  have hlt := lt_rnd_add_one_mul a s
  have hhalf := two_pow_eq_half_add_half hs
  have hpos : (0 : Int) ≤ 2 ^ s := by positivity
  have hupper : rnd a s < v + 1 := lt_of_mul_lt_mul_right (a := 2 ^ s) (by linarith) hpos
  have hlower : -v < rnd a s + 1 := lt_of_mul_lt_mul_right (a := 2 ^ s) (by linarith) hpos
  exact abs_le.2 ⟨by omega, by omega⟩

/-- An element of `A·R·B`, by the absolute sums of `A`'s row and `B`'s column. -/
theorem abs_mul_mul_apply_le {n : Nat} {A R B : Matrix (Fin n) (Fin n) Int} {σ ρ : Int} {k l : Fin n}
    (hA : ∑ i, |A k i| ≤ σ) (hR : ∀ i j, |R i j| ≤ ρ) (hB : ∑ j, |B j l| ≤ σ) : |(A * R * B) k l| ≤ σ * ρ * σ := by
  have hρ : 0 ≤ ρ := (abs_nonneg _).trans (hR k l)
  have hσ : 0 ≤ σ := (Finset.sum_nonneg fun _ _ => abs_nonneg _).trans hA
  exact abs_mul_apply_le_of_column (fun j => abs_mul_apply_le_of_row hA (fun i => hR i j) hρ) hB (mul_nonneg hσ hρ)

theorem abs_fdct_le {n : Nat} {σ ρ v : Int} (hrow : ∀ k, ∑ i, |blockMatrix n (basis n) k i| ≤ σ) {r : Block}
    (hr : ∀ i < n, ∀ j < n, |blockAt r i j| ≤ ρ) (hv : σ * ρ * σ < 2 ^ 24 * v + 2 ^ 23) {k l : Nat} (hk : k < n)
    (hl : l < n) : |blockAt (fdct n r) k l| ≤ v := by
  rw [fdct_apply n r ⟨k, hk⟩ ⟨l, hl⟩]
  refine abs_rnd_le (by decide) (lt_of_le_of_lt ?_ hv)
  exact abs_mul_mul_apply_le (hrow _) (fun i j => hr i i.isLt j j.isLt) (hrow ⟨l, hl⟩)

theorem abs_idct_le {n : Nat} {σ ρ v : Int} (hcolumn : ∀ j, ∑ k, |blockMatrix n (basis n) k j| ≤ σ) {c : Block}
    (hc : ∀ k < n, ∀ l < n, |blockAt c k l| ≤ ρ) (hv : σ * ρ * σ < 2 ^ 40 * v + 2 ^ 39) {i j : Nat} (hi : i < n)
    (hj : j < n) : |blockAt (idct n c) i j| ≤ v := by
  rw [idct_apply n c ⟨i, hi⟩ ⟨j, hj⟩]
  refine abs_rnd_le (by decide) (lt_of_le_of_lt ?_ hv)
  exact abs_mul_mul_apply_le (hcolumn ⟨i, hi⟩) (fun k l => hc k k.isLt l l.isLt) (hcolumn _)

/-- No row of `M_16` has an absolute sum above that of row 0 (R207). -/
theorem basis16_row_abs_sum_le : ∀ k, ∑ i, |blockMatrix 16 (basis 16) k i| ≤ 262144 := by decide +kernel

/-- The same for `M_8`. -/
theorem basis8_row_abs_sum_le : ∀ k, ∑ i, |blockMatrix 8 (basis 8) k i| ≤ 185360 := by decide +kernel

theorem Snapshot.n_cases (c : Snapshot) : c.n = 8 ∨ c.n = 16 := by
  unfold Snapshot.n
  split
  · exact .inr rfl
  · exact .inl rfl

/-- Whatever 16-bit cells it is made from, a residual's coefficients fit a COEF cell. -/
theorem abs_fdct_lt_of_cells (c : Snapshot) {r : Block} (hr : ∀ i < c.n, ∀ j < c.n, |blockAt r i j| ≤ 65535)
    {k l : Nat} (hk : k < c.n) (hl : l < c.n) : |blockAt (fdct c.n r) k l| ≤ 2 ^ 31 - 1 := by
  rcases c.n_cases with hn | hn <;> rw [hn] at hr hk hl ⊢
  · exact abs_fdct_le basis8_row_abs_sum_le hr (by norm_num) hk hl
  · exact abs_fdct_le basis16_row_abs_sum_le hr (by norm_num) hk hl

/-! ### The range of a prediction and of a residual (R160, R166) -/

/-- The neighbour samples lie in 0 … `M`. -/
structure NeighboursWithin (M : Int) (nb : Neighbours) : Prop where
  top : ∀ v ∈ nb.top, 0 ≤ v ∧ v ≤ M
  left : ∀ v ∈ nb.left, 0 ≤ v ∧ v ≤ M
  corner : 0 ≤ nb.corner ∧ nb.corner ≤ M

theorem getD_within {M : Int} (hM : 0 ≤ M) {l : List Int} (h : ∀ v ∈ l, 0 ≤ v ∧ v ≤ M) (i : Nat) :
    0 ≤ l.getD i 0 ∧ l.getD i 0 ≤ M := by
  rcases Nat.lt_or_ge i l.length with hi | hi
  · rw [List.getD_eq_getElem _ _ hi]
    exact h _ (List.getElem_mem hi)
  · rw [List.getD_eq_default _ _ hi]
    exact ⟨le_rfl, hM⟩

/-- A prediction copies neighbour samples, or is 0. -/
theorem predictAt_within {M : Int} (hM : 0 ≤ M) {nb : Neighbours} (h : NeighboursWithin M nb) (i j : Nat)
    (m : PredMode) : 0 ≤ predictAt nb i j m ∧ predictAt nb i j m ≤ M := by
  cases m with
  | none => exact ⟨le_rfl, hM⟩
  | vertical => exact getD_within hM h.top j
  | horizontal => exact getD_within hM h.left i
  | diagonal =>
    simp only [predictAt]
    split
    · exact h.corner
    · split
      · exact getD_within hM h.top _
      · exact getD_within hM h.left _

theorem State.reconSample_nonneg (s : State) (x y : Nat) : 0 ≤ s.reconSample x y := Int.natCast_nonneg _

theorem State.reconSample_le (s : State) (x y : Nat) : s.reconSample x y ≤ 65535 := by
  have := (s.reconCell (s.snap.sampleIndex x y)).isLt
  rw [State.reconSample]
  omega

/-- Bounds on the samples a prediction reads bound the neighbour vectors. -/
theorem State.neighbours_within (s : State) {M : Int} (hM : 0 ≤ M) (br bc : Nat)
    (htop : 0 < br → ∀ j < s.snap.n, s.reconSample (bc * s.snap.n + j) (br * s.snap.n - 1) ≤ M)
    (hleft : 0 < bc → ∀ i < s.snap.n, s.reconSample (bc * s.snap.n - 1) (br * s.snap.n + i) ≤ M)
    (hcorner : 0 < br → 0 < bc → s.reconSample (bc * s.snap.n - 1) (br * s.snap.n - 1) ≤ M) :
    NeighboursWithin M (s.neighbours br bc) where
  top v hv := by
    simp only [State.neighbours, List.mem_ite_nil_right, List.mem_map, List.mem_range] at hv
    obtain ⟨hbr, j, hj, rfl⟩ := hv
    exact ⟨s.reconSample_nonneg _ _, htop hbr j hj⟩
  left v hv := by
    simp only [State.neighbours, List.mem_ite_nil_right, List.mem_map, List.mem_range] at hv
    obtain ⟨hbc, i, hi, rfl⟩ := hv
    exact ⟨s.reconSample_nonneg _ _, hleft hbc i hi⟩
  corner := by
    simp only [State.neighbours]
    split
    · rename_i h
      exact ⟨s.reconSample_nonneg _ _, hcorner h.1 h.2⟩
    · exact ⟨le_rfl, hM⟩

theorem State.neighbours_within_of_inRange (s : State) {br bc : Nat} (h : NeighboursInRange s br bc) :
    NeighboursWithin s.snap.smax (s.neighbours br bc) :=
  s.neighbours_within s.snap.smax_nonneg br bc h.1 h.2.1 h.2.2

theorem State.neighbours_within_cells (s : State) (br bc : Nat) : NeighboursWithin 65535 (s.neighbours br bc) :=
  s.neighbours_within (by decide) br bc (fun _ _ _ => s.reconSample_le _ _) (fun _ _ _ => s.reconSample_le _ _)
    fun _ _ => s.reconSample_le _ _

/-- The difference of a sample and a prediction, both in 0 … `M`. -/
theorem State.abs_candidateResidual_le (s : State) {M : Int} (hM : 0 ≤ M) {br bc i j : Nat}
    (hneighbours : NeighboursWithin M (s.neighbours br bc)) (m : PredMode) (hi : i < s.snap.n) (hj : j < s.snap.n)
    (hsample : ((s.origCell (s.snap.cellIndex br bc i j)).toNat : Int) ≤ M) :
    |blockAt (s.candidateResidual br bc m) i j| ≤ M := by
  have hpred := predictAt_within hM hneighbours i j m
  rw [s.candidateResidual_at m br bc hi hj, s.prediction_at m br bc hi hj, abs_le]
  omega

/-- R166 for the selected mode: with samples in range the residual is within ±1023. -/
theorem State.abs_encodeResidual_le (s : State) {br bc i j : Nat} (hsamples : SamplesInRange s br bc)
    (hneighbours : NeighboursInRange s br bc) (hi : i < s.snap.n) (hj : j < s.snap.n) :
    |blockAt (s.encodeResidual br bc) i j| ≤ 1023 := by
  have hsmax := s.snap.smax_cases
  exact (s.abs_candidateResidual_le s.snap.smax_nonneg (s.neighbours_within_of_inRange hneighbours) _ hi hj
    (hsamples i hi j hj)).trans (by omega)

/-! ### The lossless in-loop reconstruction (R173) -/

theorem State.encodeReconstruction_at (s : State) {br bc i j : Nat} (hsamples : SamplesInRange s br bc)
    (hneighbours : NeighboursInRange s br bc) (hi : i < s.snap.n) (hj : j < s.snap.n) :
    blockAt (s.encodeReconstruction br bc) i j = ((s.origCell (s.snap.cellIndex br bc i j)).toNat : Int) := by
  have hresidual : ∀ k < s.snap.n, ∀ l < s.snap.n, |blockAt (s.encodeResidual br bc) k l| ≤ 1023 := fun _ hk _ hl =>
    s.abs_encodeResidual_le hsamples hneighbours hk hl
  have hround : blockAt (idct s.snap.n (fdct s.snap.n (s.encodeResidual br bc))) i j =
      blockAt (s.encodeResidual br bc) i j :=
    Proofs.transformRoundTripIsExact.1 _ _ s.snap.n_cases hresidual i hi j hj
  have hsample := hsamples i hi j hj
  rw [State.encodeReconstruction, s.reconstruct_at _ _ hi hj, State.encodeCoefficients, hround, State.encodeResidual,
    s.candidateResidual_at _ br bc hi hj]
  omega

/-- After an encode block step RECON equals ORIG on the block. -/
theorem State.encodeBlock_reconCell_eq_orig (s : State) {br bc i j : Nat} (hbc : bc < s.snap.bcols)
    (hsamples : SamplesInRange s br bc) (hneighbours : NeighboursInRange s br bc) (hi : i < s.snap.n)
    (hj : j < s.snap.n) :
    (s.encodeBlock br bc).reconCell (s.snap.cellIndex br bc i j) = s.origCell (s.snap.cellIndex br bc i j) := by
  rw [s.encodeBlock_reconCell hbc hi hj, s.encodeReconstruction_at hsamples hneighbours hi hj, BitVec.ofInt_natCast,
    BitVec.ofNat_toNat, BitVec.setWidth_eq]

/-! ### Two configurations of the same plane (R13) -/

/-- The same KIND, DEPTH, W and H: the configurations may differ in METRIC and in the recorded geometry. -/
structure SamePlane (c d : Snapshot) : Prop where
  plane : c.plane = d.plane
  width : c.width = d.width
  height : c.height = d.height

section
variable {c d : Snapshot} (h : SamePlane c d)
include h

theorem SamePlane.eq : c = { d with metric := c.metric, geom := c.geom } := by
  obtain ⟨_, _, _, _, _⟩ := c
  obtain ⟨rfl, rfl, rfl⟩ := h
  rfl

theorem SamePlane.n : c.n = d.n := by
  rw [h.eq]
  rfl

theorem SamePlane.smax : c.smax = d.smax := by
  rw [h.eq]
  rfl

theorem SamePlane.cellIndex (br bc i j : Nat) : c.cellIndex br bc i j = d.cellIndex br bc i j := by
  rw [h.eq]
  rfl

theorem SamePlane.blockIndex (br bc : Nat) : c.blockIndex br bc = d.blockIndex br bc := by
  rw [h.eq]
  rfl

theorem SamePlane.inGrid_iff {br bc : Nat} : InGrid c br bc ↔ InGrid d br bc := by
  rw [h.eq]
  rfl

end

/-! ### The decoder of an encoded block (R250) -/

/-- A MODE cell that holds a mode's tag reads back as that mode (R105, R106). -/
theorem State.storedMode_of_modeCell (u : State) {br bc : Nat} {m : PredMode}
    (h : u.modeCell (u.snap.blockIndex br bc) = m.tag.setWidth 8) : u.storedMode br bc = m := by
  rw [State.storedMode, h]
  cases m <;> rfl

theorem State.storedModeAllowed_of_modeCell (u : State) {br bc : Nat} {m : PredMode} (hallowed : TagAllowed br bc m)
    (h : u.modeCell (u.snap.blockIndex br bc) = m.tag.setWidth 8) : StoredModeAllowed u br bc := by
  refine ⟨?_, by rwa [u.storedMode_of_modeCell h]⟩
  rw [h]
  cases m <;> decide

/-- A COEF block that holds an encoder's coefficients, as 32-bit cells, reads back as those coefficients. -/
theorem State.coefBlock_of_encoded (s u : State) {br bc : Nat} (hn : u.snap.n = s.snap.n)
    (h : ∀ i < s.snap.n, ∀ j < s.snap.n, u.coefCell (u.snap.cellIndex br bc i j) =
      BitVec.ofInt 32 (blockAt (s.encodeCoefficients br bc) i j)) :
    u.coefBlock br bc = s.encodeCoefficients br bc := by
  have hresidual : ∀ k < s.snap.n, ∀ l < s.snap.n, |blockAt (s.encodeResidual br bc) k l| ≤ 65535 := fun k hk l hl =>
    s.abs_candidateResidual_le (by decide) (s.neighbours_within_cells br bc) _ hk hl
      (by have := (s.origCell (s.snap.cellIndex br bc k l)).isLt; omega)
  rw [State.coefBlock, hn, State.encodeCoefficients, fdct_eq_blockOf]
  refine blockOf_congr fun i hi j hj => ?_
  have hfits := abs_le.1 (abs_fdct_lt_of_cells s.snap hresidual hi hj)
  rw [h i hi j hj, State.encodeCoefficients,
    BitVec.toInt_ofInt_eq_self (by decide) (by omega) (by omega), fdct_at _ _ hi hj]

/-- The decoder rebuilds the encoder's samples from the mode, the coefficients and the neighbours (R250). -/
theorem decodeReconstruction_of_encoded {s u : State} {br bc : Nat} (hn : u.snap.n = s.snap.n)
    (hsmax : u.snap.smax = s.snap.smax) (hneighbours : u.neighbours br bc = s.neighbours br bc)
    (hmode : u.storedMode br bc = s.selectedMode br bc) (hcoef : u.coefBlock br bc = s.encodeCoefficients br bc) :
    u.decodeReconstruction br bc = s.encodeReconstruction br bc := by
  simp only [State.decodeReconstruction, State.encodeReconstruction, State.reconstruct, State.decodeResidual, hn, hsmax,
    hmode, hcoef, prediction_congr hn hneighbours]

end Sys2Proof.Machine

namespace Sys2Proof.Proofs

open Sys2Proof.Machine Sys2Proof.Safety

/-- Settles O39: the metric as a sum of terms, of which there are at most 256, each at most 1023². -/
theorem metricFitsItsRegister : Obligations.MetricFitsItsRegister := by
  refine ⟨fun s br bc m => ⟨fun h => ?_, fun h => ?_⟩, fun ssd n r hn hr => ⟨energy_nonneg ssd n r, energy_le ssd hn hr⟩⟩
  · simp [s.candidateEnergy_eq_sum, h, energyTerm]
  · simp [s.candidateEnergy_eq_sum, h, energyTerm, sq]

/-- Settles O40: the fold keeps the earliest minimum, and an interior block has the three candidates. -/
theorem selectionIsTheEarliestMinimum : Obligations.SelectionIsTheEarliestMinimum := by
  refine ⟨fun e l => ⟨?_, fun hl => ?_⟩, fun s br bc hbr hbc => ?_⟩
  · rintro rfl
    rfl
  · obtain ⟨m, rest, rfl⟩ := List.exists_cons_of_ne_nil hl
    exact selectMode_earliestMin e m rest
  · rw [s.selectedMode_interior hbr hbc]
    split <;> split <;> simp <;> omega

/-- Settles O44, by the absolute sums of the tables' rows. -/
theorem forwardCoefficientsAreBounded : Obligations.ForwardCoefficientsAreBounded := fun _ =>
  ⟨fun hr _ hk _ hl => abs_fdct_le basis16_row_abs_sum_le hr (by norm_num) hk hl,
    fun hr _ hk _ hl => abs_fdct_le basis8_row_abs_sum_le hr (by norm_num) hk hl⟩

/-- Settles O45, by the absolute sums of the tables' columns. -/
theorem inverseResidualsAreBounded : Obligations.InverseResidualsAreBounded := fun _ =>
  ⟨fun hc _ hi _ hj => abs_idct_le nearlyOrthogonal_basis16.column hc (by norm_num) hi hj,
    fun hc _ hi _ hj => abs_idct_le nearlyOrthogonal_basis8.column hc (by norm_num) hi hj⟩

/-- Settles O47: the residual stays within ±1023, so the round trip is exact and the sum is the sample. -/
theorem encbReconstructsTheOriginal : Obligations.EncbReconstructsTheOriginal :=
  fun s _ _ hlegal hgrid hready hsamples hneighbours =>
    ⟨_, exec_encb_ready s hlegal hgrid hready hsamples, rfl,
      fun _ hi _ hj => s.encodeBlock_reconCell_eq_orig hgrid.2 hsamples hneighbours hi hj⟩

/-- Settles O48: the stored tag is the selected mode, the stored coefficients fit their cells, and the same sum follows. -/
theorem decoderRebuildsTheEncodersBlock : Obligations.DecoderRebuildsTheEncodersBlock := by
  intro s t u br bc hlegal hgrid hready hsamples hexec hplane hwidth hheight hneighbours hmode hcoef hlegal' hgeometry
    hready' hcoef'
  obtain rfl : t = (s.encodeBlock br bc).complete := by
    rw [exec_encb_ready s hlegal hgrid hready hsamples] at hexec
    exact (Host.Outcome.next.inj hexec).symm
  have hsame : SamePlane u.snap s.snap := ⟨hplane, hwidth, hheight⟩
  have hgrid' : InGrid u.snap br bc := hsame.inGrid_iff.2 hgrid
  have htag : u.modeCell (u.snap.blockIndex br bc) = (s.selectedMode br bc).tag.setWidth 8 := by
    rw [hsame.blockIndex]
    exact hmode.trans (s.encodeBlock_modeCell br bc)
  have hblock : u.decodeReconstruction br bc = s.encodeReconstruction br bc := by
    refine decodeReconstruction_of_encoded hsame.n hsame.smax hneighbours (u.storedMode_of_modeCell htag) ?_
    refine s.coefBlock_of_encoded u hsame.n fun i hi j hj => ?_
    rw [hsame.cellIndex, hcoef i hi j hj]
    exact s.encodeBlock_coefCell hgrid.2 hi hj
  refine ⟨_, exec_decb_ready u hlegal' hgrid' hgeometry hready'
    (u.storedModeAllowed_of_modeCell (s.selectedMode_allowed br bc) htag) hcoef', rfl, fun i hi j hj => ?_⟩
  rw [State.complete_reconCell, State.complete_reconCell, s.encodeBlock_reconCell hgrid.2 hi hj, ← hsame.cellIndex,
    u.decodeBlock_reconCell hgrid'.2 (hsame.n ▸ hi) (hsame.n ▸ hj), hblock]

/-- Settles O50: mode, residual and coefficients are computed from these parts of the state alone. -/
theorem encoderReadsOnlyBlockAndNeighbours : Obligations.EncoderReadsOnlyBlockAndNeighbours := by
  intro s u br bc hn hmetric horig hneighbours
  have hview : SameView s u br bc := ⟨hn, hmetric, horig, hneighbours⟩
  exact ⟨hview.selectedMode, hview.encodeResidual, hview.encodeCoefficients⟩

end Sys2Proof.Proofs
end

section
/-! SUPPORT. Canonical buffers and maps with the same cells are the same (log entry 1), so writes to different cells commute;
and a block step that is no neighbour of a block leaves what that block's steps read (rules R138, R160, R253), for the
independence of blocks (R254). -/

namespace Sys2Proof.Machine

open Sys2Proof.Safety

/-! ### A canonical buffer is determined by its cells -/

section
variable {w : Nat}

/-- In a canonical buffer an entry is what a read of its index returns. -/
theorem mem_iff_cellGet {b : Buffer w} (hb : (b.map Prod.fst).Pairwise (· < ·)) (k : Nat) (v : BitVec w) :
    (k, v) ∈ b ↔ cellGet b k = some v := by
  induction b with
  | nil => simp [cellGet]
  | cons c rest ih =>
    obtain ⟨a, x⟩ := c
    simp only [List.map_cons, List.pairwise_cons] at hb
    rw [List.mem_cons, ih hb.2, Prod.mk.injEq, cellGet]
    by_cases hk : a = k
    · subst hk
      have habsent : cellGet rest a ≠ some v := fun hget =>
        lt_irrefl a (hb.1 a (List.mem_map.2 ⟨(a, v), (ih hb.2).2 hget, rfl⟩))
      simp [habsent, eq_comm]
    · simp [hk, Ne.symm hk]

theorem buffer_ext {b b' : Buffer w} (hb : (b.map Prod.fst).Pairwise (· < ·))
    (hb' : (b'.map Prod.fst).Pairwise (· < ·)) (h : ∀ k, cellGet b k = cellGet b' k) : b = b' := by
  have hnodup {l : Buffer w} (hl : (l.map Prod.fst).Pairwise (· < ·)) : l.Nodup :=
    List.Nodup.of_map _ (hl.imp ne_of_lt)
  have hperm : b.Perm b' := by
    rw [List.perm_ext_iff_of_nodup (hnodup hb) (hnodup hb')]
    rintro ⟨k, v⟩
    rw [mem_iff_cellGet hb, mem_iff_cellGet hb', h]
  refine List.Perm.eq_of_pairwise (le := fun p q => p.1 < q.1) (fun p q _ _ hpq hqp => ?_) (List.pairwise_map.1 hb)
    (List.pairwise_map.1 hb') hperm
  exact absurd hqp (lt_asymm hpq)

/-- Writes to different cells commute. -/
theorem cellPut_comm {b : Buffer w} (hb : (b.map Prod.fst).Pairwise (· < ·)) {k k' : Nat} (v v' : BitVec w)
    (h : k ≠ k') : cellPut (cellPut b k v) k' v' = cellPut (cellPut b k' v') k v := by
  refine buffer_ext (cellPut_rising _ _ _ (cellPut_rising _ _ _ hb)) (cellPut_rising _ _ _ (cellPut_rising _ _ _ hb)) ?_
  intro a
  simp only [cellGet_cellPut]
  split
  · subst a
    simp [h.symm]
  · rfl

/-- Writes of two lists of cells without a common cell commute. -/
theorem putCells_comm {b : Buffer w} (hb : (b.map Prod.fst).Pairwise (· < ·)) {l l' : List (Nat × BitVec w)}
    (hl : (l.map Prod.fst).Nodup) (hl' : (l'.map Prod.fst).Nodup)
    (h : ∀ k ∈ l.map Prod.fst, k ∉ l'.map Prod.fst) :
    putCells (putCells b l) l' = putCells (putCells b l') l := by
  refine buffer_ext (putCells_rising _ _ (putCells_rising _ _ hb)) (putCells_rising _ _ (putCells_rising _ _ hb)) ?_
  intro k
  by_cases hk : k ∈ l.map Prod.fst
  · obtain ⟨⟨k, v⟩, hv, rfl⟩ := List.mem_map.1 hk
    rw [cellGet_putCells_other l' _ (h k hk), cellGet_putCells_mem l _ hl hv, cellGet_putCells_mem l _ hl hv]
  · rw [cellGet_putCells_other l _ hk]
    by_cases hk' : k ∈ l'.map Prod.fst
    · obtain ⟨⟨k, v⟩, hv, rfl⟩ := List.mem_map.1 hk'
      rw [cellGet_putCells_mem l' _ hl' hv, cellGet_putCells_mem l' _ hl' hv]
    · rw [cellGet_putCells_other l' _ hk', cellGet_putCells_other l' _ hk', cellGet_putCells_other l _ hk]

/-- The blocks of two lists of cells that are two blocks of the grid have no common cell (R135). -/
theorem storeBlock_comm (c : Snapshot) {b : Buffer w} (hb : (b.map Prod.fst).Pairwise (· < ·)) {br bc br' bc' : Nat}
    (hbc : bc < c.bcols) (hbc' : bc' < c.bcols) (hne : ¬(br = br' ∧ bc = bc')) (x x' : Block) :
    putCells (putCells b (c.blockCells w br bc x)) (c.blockCells w br' bc' x') =
      putCells (putCells b (c.blockCells w br' bc' x')) (c.blockCells w br bc x) := by
  refine putCells_comm hb (blockCells_nodup c x hbc) (blockCells_nodup c x' hbc') fun k hk hk' => hne ?_
  obtain ⟨i, hi, j, hj, rfl⟩ := (mem_keys_blockCells c br bc x k).1 hk
  obtain ⟨i', hi', j', hj', heq⟩ := (mem_keys_blockCells c br' bc' x' _).1 hk'
  obtain ⟨hbr, hbc, -⟩ := cellIndex_inj c hbc hbc' hi hj hi' hj' heq
  exact ⟨hbr, hbc⟩

end

/-- Setting two bits commutes. -/
theorem availPut_comm {l : List Nat} (hl : l.Pairwise (· < ·)) (b b' : Nat) :
    availPut (availPut l b) b' = availPut (availPut l b') b := by
  refine (availPut_rising _ _ (availPut_rising _ _ hl)).eq_of_mem_iff (availPut_rising _ _ (availPut_rising _ _ hl)) ?_
  intro a
  simp only [mem_availPut]
  tauto

/-! ### What a block step leaves of another block's view (R138, R160) -/

/-- Block (br, bc) is not the block above, left or above left of block (br', bc'), whose samples its prediction reads. -/
structure NotReadBy (br bc br' bc' : Nat) : Prop where
  above : ¬(br + 1 = br' ∧ bc = bc')
  before : ¬(br = br' ∧ bc + 1 = bc')
  corner : ¬(br + 1 = br' ∧ bc + 1 = bc')

theorem notReadBy_of_independent {br bc br' bc' : Nat} (h : Independent br bc br' bc') :
    NotReadBy br bc br' bc' ∧ NotReadBy br' bc' br bc ∧ ¬(br = br' ∧ bc = bc') := by
  obtain ⟨h, h'⟩ := h
  exact ⟨⟨by omega, by omega, by omega⟩, ⟨by omega, by omega, by omega⟩, by omega⟩

/-- A block is not its own neighbour. -/
theorem notReadBy_self (br bc : Nat) : NotReadBy br bc br bc := ⟨by omega, by omega, by omega⟩

/-- A step that writes RECON in one block alone leaves the neighbour samples of every block that does not read it. -/
theorem neighbours_of_notReadBy {s t : State} {br bc br' bc' : Nat} (hsnap : t.snap = s.snap)
    (hbc : bc < s.snap.bcols) (hbc' : bc' < s.snap.bcols) (hread : NotReadBy br bc br' bc')
    (hrecon : ∀ k, ¬InBlock s.snap br bc k → t.reconCell k = s.reconCell k) :
    t.neighbours br' bc' = s.neighbours br' bc' := by
  have hlast : s.snap.n - 1 < s.snap.n := Nat.pred_lt_of_lt s.snap.n_pos
  have hsample {x y a b i j : Nat} (hindex : s.snap.sampleIndex x y = s.snap.cellIndex a b i j) (hb : b < s.snap.bcols)
      (hne : ¬(br = a ∧ bc = b)) (hi : i < s.snap.n) (hj : j < s.snap.n) : t.reconSample x y = s.reconSample x y := by
    rw [State.reconSample, State.reconSample, hsnap, hindex, hrecon _ (not_inBlock_of_ne s.snap hbc hb hne hi hj)]
  obtain ⟨habove, hbefore, hcorner⟩ := hread
  simp only [State.neighbours, hsnap, Neighbours.mk.injEq]
  refine ⟨?_, ?_, ?_⟩
  · split
    · rename_i h
      exact List.map_congr_left fun j hj =>
        hsample (sampleIndex_above s.snap bc' j h) hbc' (by omega) hlast (List.mem_range.1 hj)
    · rfl
  · split
    · rename_i h
      exact List.map_congr_left fun i hi =>
        hsample (sampleIndex_before s.snap br' i h) (by omega) (by omega) (List.mem_range.1 hi) hlast
    · rfl
  · split
    · rename_i h
      exact hsample (sampleIndex_corner s.snap h.1 h.2) (by omega) (by omega) hlast hlast
    · rfl

section
variable {s : State} {br bc br' bc' : Nat} (hbc : bc < s.snap.bcols) (hbc' : bc' < s.snap.bcols)
  (hread : NotReadBy br bc br' bc')
include hbc hbc' hread

theorem encodeBlock_neighbours : (s.encodeBlock br bc).neighbours br' bc' = s.neighbours br' bc' :=
  neighbours_of_notReadBy rfl hbc hbc' hread fun _ => s.encodeBlock_reconCell_other

/-- The encode step of a block that is not a neighbour leaves what the encoder reads. -/
theorem encodeBlock_sameView : SameView s (s.encodeBlock br bc) br' bc' :=
  ⟨rfl, rfl, rfl, encodeBlock_neighbours hbc hbc' hread⟩

end

theorem SameView.encodeReconstruction {s u : State} {br bc : Nat} (h : SameView s u br bc)
    (hsmax : u.snap.smax = s.snap.smax) : u.encodeReconstruction br bc = s.encodeReconstruction br bc := by
  simp only [State.encodeReconstruction, State.reconstruct, h.n, hsmax, h.selectedMode, h.encodeCoefficients,
    prediction_congr h.n h.neighbours]

/-- The buffers after the encode steps of two blocks, the second not reading the first: both blocks' values are those of
the state before. -/
theorem encodeBlock_encodeBlock_mem {s : State} {br bc br' bc' : Nat} (hbc : bc < s.snap.bcols)
    (hbc' : bc' < s.snap.bcols) (hread : NotReadBy br bc br' bc') :
    ((s.encodeBlock br bc).encodeBlock br' bc').mem =
      { orig := s.mem.orig
        recon := putCells (putCells s.mem.recon (s.snap.blockCells 16 br bc (s.encodeReconstruction br bc)))
          (s.snap.blockCells 16 br' bc' (s.encodeReconstruction br' bc'))
        res := putCells (putCells s.mem.res (s.snap.blockCells 32 br bc (s.encodeResidual br bc)))
          (s.snap.blockCells 32 br' bc' (s.encodeResidual br' bc'))
        coef := putCells (putCells s.mem.coef (s.snap.blockCells 32 br bc (s.encodeCoefficients br bc)))
          (s.snap.blockCells 32 br' bc' (s.encodeCoefficients br' bc'))
        mode := cellPut (cellPut s.mem.mode (s.snap.blockIndex br bc) ((s.selectedMode br bc).tag.setWidth 8))
          (s.snap.blockIndex br' bc') ((s.selectedMode br' bc').tag.setWidth 8)
        avail := availPut (availPut s.mem.avail (s.snap.blockIndex br bc)) (s.snap.blockIndex br' bc') } := by
  have hview := encodeBlock_sameView hbc hbc' hread
  rw [← hview.encodeResidual, ← hview.encodeCoefficients, ← hview.selectedMode, ← hview.encodeReconstruction rfl]
  rfl

end Sys2Proof.Machine

namespace Sys2Proof.Proofs

open Sys2Proof.Machine Sys2Proof.Safety

/-- Settles O51: neither block reads the other, so both store the values of the state before, in different cells of
canonical buffers. -/
theorem independentBlocksCommute : Obligations.IndependentBlocksCommute := by
  intro s br bc br' bc' hwf hgrid hgrid' hindependent
  obtain ⟨-, hrecon, hres, hcoef, hmode, havail⟩ := hwf
  obtain ⟨hread, hread', hne⟩ := notReadBy_of_independent hindependent
  have hindex : s.snap.blockIndex br bc ≠ s.snap.blockIndex br' bc' := mt (blockIndex_inj s.snap hgrid.2 hgrid'.2) hne
  rw [encodeBlock_encodeBlock_mem hgrid.2 hgrid'.2 hread,
    encodeBlock_encodeBlock_mem hgrid'.2 hgrid.2 hread', storeBlock_comm s.snap hrecon hgrid.2 hgrid'.2 hne,
    storeBlock_comm s.snap hres hgrid.2 hgrid'.2 hne, storeBlock_comm s.snap hcoef hgrid.2 hgrid'.2 hne,
    cellPut_comm hmode _ _ hindex, availPut_comm havail]

end Sys2Proof.Proofs
end

section
/-! SUPPORT. The blocks of the grid by raster position (rules R12, R136), and a sweep as a whole: the checks, VALIDATE, CLEAR
and the block steps in raster order, or the first failing block (R245 to R249, R297), for the statements of
43_reconstruction.md. -/

namespace Sys2Proof.Machine

open Sys2Proof.Safety

/-! ### Raster positions (R12, R136) -/

/-- The block at raster position `m`. -/
def rasterPos (c : Snapshot) (m : Nat) : Nat × Nat := (m / c.bcols, m % c.bcols)

theorem rasterPos_zero (c : Snapshot) : rasterPos c 0 = (0, 0) := by
  simp [rasterPos]

theorem blockIndex_rasterPos (c : Snapshot) (m : Nat) : c.blockIndex (rasterPos c m).1 (rasterPos c m).2 = m :=
  Nat.div_add_mod' m c.bcols

theorem rasterPos_blockIndex (c : Snapshot) {br bc : Nat} (hbc : bc < c.bcols) :
    rasterPos c (c.blockIndex br bc) = (br, bc) := by
  obtain ⟨hbr, hbc'⟩ := raster_inj (Nat.mod_lt _ (Nat.zero_lt_of_lt hbc)) hbc
    (blockIndex_rasterPos c (c.blockIndex br bc))
  exact Prod.ext hbr hbc'

theorem rasterPos_inGrid {c : Snapshot} {m : Nat} (h : m < c.brows * c.bcols) :
    InGrid c (rasterPos c m).1 (rasterPos c m).2 :=
  ⟨Nat.div_lt_of_lt_mul (Nat.mul_comm c.brows c.bcols ▸ h), Nat.mod_lt _ (Nat.pos_of_mul_pos_left (Nat.zero_lt_of_lt h))⟩

/-- The next block is the one at the next position, if the grid has one. -/
theorem nextBlock_rasterPos {c : Snapshot} {m : Nat} (h : m < c.brows * c.bcols) :
    c.nextBlock (rasterPos c m).1 (rasterPos c m).2 =
      if m + 1 < c.brows * c.bcols then some (rasterPos c (m + 1)) else none := by
  obtain ⟨hbr, hbc⟩ := rasterPos_inGrid h
  cases hnext : c.nextBlock (rasterPos c m).1 (rasterPos c m).2 with
  | none =>
    have hlast := nextBlock_none c hbr hbc hnext
    rw [blockIndex_rasterPos] at hlast
    rw [if_neg (by omega)]
  | some p =>
    obtain ⟨hindex, hgrid⟩ := nextBlock_spec c hbr hbc hnext
    have hlt := blockIndex_lt c hgrid.1 hgrid.2
    rw [blockIndex_rasterPos] at hindex
    rw [if_pos (by omega), ← hindex, rasterPos_blockIndex c hgrid.2]

/-- The rows of the grid one after the other are its raster positions. -/
theorem rasterBlocks_eq_map (c : Snapshot) (h : 0 < c.bcols) :
    rasterBlocks c = (List.range (c.brows * c.bcols)).map (rasterPos c) := by
  unfold rasterBlocks
  generalize c.brows = rows
  induction rows with
  | zero => simp
  | succ rows ih =>
    rw [List.range_succ, List.flatMap_append, ih, Nat.succ_mul, List.range_add, List.map_append, List.map_map]
    congr 1
    rw [List.flatMap_singleton]
    refine List.map_congr_left fun bc hbc => ?_
    have hlt := List.mem_range.1 hbc
    simp [rasterPos, Nat.mod_eq_of_lt hlt, Nat.mul_comm rows, Nat.mul_add_div h, Nat.div_eq_of_lt hlt]

/-- A block of the row above, not to the right, comes before. -/
theorem blockIndex_rowAbove_lt (c : Snapshot) {br bc b : Nat} (hbr : 0 < br) (hbc : bc < c.bcols) (hb : b ≤ bc) :
    c.blockIndex (br - 1) b < c.blockIndex br bc := by
  obtain ⟨br, rfl⟩ := Nat.exists_eq_add_one.2 hbr
  simp only [Snapshot.blockIndex, Nat.add_sub_cancel, Nat.succ_mul]
  omega

/-- The block to the left comes before. -/
theorem blockIndex_left_lt (c : Snapshot) (br : Nat) {bc : Nat} (hbc : 0 < bc) :
    c.blockIndex br (bc - 1) < c.blockIndex br bc :=
  Nat.add_lt_add_left (Nat.sub_one_lt_of_lt hbc) _

/-- A block is ready when AVAIL holds exactly the blocks before it (R138, R247). -/
theorem causallyReady_of_range {s : State} {br bc : Nat} (hbc : bc < s.snap.bcols)
    (havail : s.mem.avail = List.range (s.snap.blockIndex br bc)) : CausallyReady s br bc := by
  have hbit (b : Nat) : s.availBit b = true ↔ b < s.snap.blockIndex br bc := by
    simp [State.availBit, havail]
  refine ⟨?_, fun hbr => (hbit _).2 (blockIndex_rowAbove_lt s.snap hbr hbc le_rfl),
    fun hbc' => (hbit _).2 (blockIndex_left_lt s.snap br hbc'),
    fun hbr _ => (hbit _).2 (blockIndex_rowAbove_lt s.snap hbr hbc (Nat.sub_le _ _))⟩
  rw [← Bool.not_eq_true, hbit]
  exact lt_irrefl _

/-! ### Runs of the engine alone -/

theorem State.after_add {s t : State} {k : Nat} (h : s.after k = some t) (l : Nat) : s.after (k + l) = t.after l := by
  induction k generalizing s with
  | zero =>
    obtain rfl : s = t := Option.some.inj h
    rw [Nat.zero_add]
  | succ k ih =>
    rw [Nat.succ_add]
    cases hstep : step s with
    | next u =>
      rw [s.after_succ_of_step hstep] at h ⊢
      exact ih h
    | fault r => nomatch r
    | refused r => simp [State.after, hstep] at h

/-- A run with one step more. -/
theorem State.after_succ {s t u : State} {k : Nat} (h : s.after k = some t) (hstep : step t = .next u) :
    s.after (k + 1) = some u := (State.after_add h 1).trans (t.after_succ_of_step hstep 0)

/-- Reset is released, the script is empty, and the command word is `i`'s: the engine alone runs `i`. -/
structure Alone (i : Instr) (s : State) : Prop where
  command : decode s.lastCmd = .ok i
  released : s.resetLine = false
  script : s.pending = []

theorem Alone.step {i : Instr} {s : State} (h : Alone i s) (hbusy : s.phase ≠ .idle) : step s = exec i s :=
  (step_of_empty s h.script).trans (s.engineTurn_runs h.released (s.busy_eq_true_iff.2 hbusy) h.command)

theorem Alone.of_hostSideKept {i : Instr} {s t : State} (h : Alone i s) (hkept : HostSideKept s t) : Alone i t := by
  obtain ⟨-, -, -, -, -, hcmd, -, -, hreset, -, hscript, -⟩ := hkept
  exact ⟨by rw [hcmd, h.command], hreset.trans h.released, hscript.trans h.script⟩

theorem hostSideKept_refl (s : State) : HostSideKept s s :=
  ⟨rfl, rfl, rfl, rfl, rfl, rfl, rfl, rfl, rfl, rfl, rfl, rfl⟩

theorem hostSideKept_trans {s t u : State} (h : HostSideKept s t) (h' : HostSideKept t u) : HostSideKept s u := by
  unfold HostSideKept at h h' ⊢
  simp only [h', h, and_self]

/-- `s` in another stage. -/
def State.atPhase (s : State) (p : Phase) : State := { s with phase := p }

/-- After the block step at raster position `m`: the next block, or completion. -/
theorem State.afterProcess_rasterPos {s : State} {c : Snapshot} (hsnap : s.snap = c) {m : Nat}
    (hm : m < c.brows * c.bcols) :
    s.afterProcess (rasterPos c m).1 (rasterPos c m).2 =
      if m + 1 < c.brows * c.bcols then s.atPhase (.process (rasterPos c (m + 1)).1 (rasterPos c (m + 1)).2)
      else s.complete := by
  subst hsnap
  rw [State.afterProcess, nextBlock_rasterPos hm]
  by_cases hnext : m + 1 < s.snap.brows * s.snap.bcols
  · rw [if_pos hnext, if_pos hnext]
    rfl
  · rw [if_neg hnext, if_neg hnext]

theorem Alone.atPhase {i : Instr} {s : State} (h : Alone i s) (p : Phase) : Alone i (s.atPhase p) :=
  ⟨h.command, h.released, h.script⟩

theorem Alone.step_atPhase {i : Instr} {s : State} {p : Phase} (h : Alone i s) (hp : p ≠ .idle) :
    Machine.step (s.atPhase p) = exec i (s.atPhase p) := (h.atPhase p).step hp

/-! ### What ENCP and DECP share (R245 to R249) -/

/-- Command `i` is a sweep: the content check `pass` decides about each block in VALIDATE, the block step `block` processes
each in PROCESS and changes neither the content nor the stage, sets the block's AVAIL bit and counts it. -/
structure SweepCommand (i : Instr) (pass : State → Nat → Nat → Prop) (block : State → Nat → Nat → State) : Prop where
  validate : ∀ s br bc, s.phase = .validate br bc → pass s br bc →
    exec i s = .next { s with phase := s.snap.afterValidate br bc }
  clear : ∀ s, s.phase = .clear → exec i s = .next { s.clearAvail with phase := .process 0 0 }
  process : ∀ s br bc, s.phase = .process br bc → CausallyReady s br bc → pass s br bc →
    exec i s = .next ((block s br bc).afterProcess br bc)
  pass_atPhase : ∀ s p br bc, pass s br bc → pass (s.atPhase p) br bc
  pass_clearAvail : ∀ s br bc, pass s br bc → pass s.clearAvail br bc
  pass_block : ∀ s br bc br' bc', pass s br' bc' → pass (block s br bc) br' bc'
  block_atPhase : ∀ s p br bc, block (s.atPhase p) br bc = (block s br bc).atPhase p
  block_kept : ∀ s br bc, HostSideKept s (block s br bc)
  block_status : ∀ s br bc, (block s br bc).status = s.status
  block_nblk : ∀ s br bc, (block s br bc).nblk = s.nblk + 1#32
  block_avail : ∀ s br bc, (block s br bc).mem.avail = availPut s.mem.avail (s.snap.blockIndex br bc)

theorem encp_sweepCommand : SweepCommand .encp SamplesInRange State.encodeBlock where
  validate s _ _ := exec_encp_validate s
  clear s := exec_encp_clear s
  process s _ _ := exec_encp_process s
  pass_atPhase _ _ _ _ h := h
  pass_clearAvail _ _ _ h := h
  pass_block _ _ _ _ _ h := h
  block_atPhase _ _ _ _ := rfl
  block_kept _ _ _ := ⟨rfl, rfl, rfl, rfl, rfl, rfl, rfl, rfl, rfl, rfl, rfl, rfl⟩
  block_status _ _ _ := rfl
  block_nblk _ _ _ := rfl
  block_avail _ _ _ := rfl

/-- The content check of DECP (R246). -/
def DecodeContentPasses (s : State) (br bc : Nat) : Prop := StoredModeAllowed s br bc ∧ CoefficientsInRange s br bc

theorem decp_sweepCommand : SweepCommand .decp DecodeContentPasses State.decodeBlock where
  validate s _ _ hphase h := exec_decp_validate s hphase h.1 h.2
  clear s := exec_decp_clear s
  process s _ _ hphase hready h := exec_decp_process s hphase hready h.1 h.2
  pass_atPhase _ _ _ _ h := h
  pass_clearAvail _ _ _ h := h
  pass_block _ _ _ _ _ h := h
  block_atPhase _ _ _ _ := rfl
  block_kept _ _ _ := ⟨rfl, rfl, rfl, rfl, rfl, rfl, rfl, rfl, rfl, rfl, rfl, rfl⟩
  block_status _ _ _ := rfl
  block_nblk _ _ _ := rfl
  block_avail _ _ _ := rfl

/-! ### The block steps in raster order -/

/-- The first `m` block steps in raster order of the grid of `c`. -/
def rasterSteps (block : State → Nat → Nat → State) (c : Snapshot) (s : State) (m : Nat) : State :=
  ((List.range m).map (rasterPos c)).foldl (fun u p => block u p.1 p.2) s

theorem rasterSteps_zero (block : State → Nat → Nat → State) (c : Snapshot) (s : State) :
    rasterSteps block c s 0 = s := rfl

theorem rasterSteps_succ (block : State → Nat → Nat → State) (c : Snapshot) (s : State) (m : Nat) :
    rasterSteps block c s (m + 1) = block (rasterSteps block c s m) (rasterPos c m).1 (rasterPos c m).2 := by
  simp [rasterSteps, List.range_succ]

/-- An invariant of the block steps in raster order, by the number of steps. -/
theorem rasterSteps_induction {block : State → Nat → Nat → State} {c : Snapshot} {s : State} {P : Nat → State → Prop}
    {M : Nat} (hzero : P 0 s) (hsucc : ∀ m < M, ∀ u, P m u → P (m + 1) (block u (rasterPos c m).1 (rasterPos c m).2)) :
    ∀ m ≤ M, P m (rasterSteps block c s m) := by
  intro m hm
  induction m with
  | zero => exact hzero
  | succ m ih =>
    rw [rasterSteps_succ]
    exact hsucc m hm _ (ih (Nat.le_of_succ_le hm))

/-! ### A sweep whose blocks pass -/

section
variable {i : Instr} {pass : State → Nat → Nat → Prop} {block : State → Nat → Nat → State}
  (sweep : SweepCommand i pass block)
include sweep

theorem rasterSteps_kept (c : Snapshot) (s : State) (m : Nat) : HostSideKept s (rasterSteps block c s m) :=
  rasterSteps_induction (P := fun _ u => HostSideKept s u) (hostSideKept_refl s)
    (fun _ _ u hu => hostSideKept_trans hu (sweep.block_kept u _ _)) m le_rfl

theorem rasterSteps_status (c : Snapshot) (s : State) (m : Nat) : (rasterSteps block c s m).status = s.status :=
  rasterSteps_induction (P := fun _ u => u.status = s.status) rfl
    (fun _ _ u hu => (sweep.block_status u _ _).trans hu) m le_rfl

theorem rasterSteps_nblk (c : Snapshot) (s : State) (m : Nat) :
    (rasterSteps block c s m).nblk = s.nblk + BitVec.ofNat 32 m :=
  rasterSteps_induction (P := fun m u => u.nblk = s.nblk + BitVec.ofNat 32 m) (BitVec.add_zero _).symm
    (fun m _ u hu => by rw [sweep.block_nblk, hu, BitVec.add_assoc, ← BitVec.ofNat_add]) m le_rfl

theorem rasterSteps_avail (s : State) (havail : s.mem.avail = []) (m : Nat) :
    (rasterSteps block s.snap s m).mem.avail = List.range m := by
  induction m with
  | zero => exact havail
  | succ m ih =>
    obtain ⟨-, -, -, -, -, -, hsnap, -⟩ := rasterSteps_kept sweep s.snap s m
    rw [rasterSteps_succ, sweep.block_avail, ih, hsnap, blockIndex_rasterPos, availPut_range]

theorem rasterSteps_pass (c : Snapshot) {s : State} {br bc : Nat} (h : pass s br bc) (m : Nat) :
    pass (rasterSteps block c s m) br bc :=
  rasterSteps_induction (P := fun _ u => pass u br bc) h (fun _ _ u hu => sweep.pass_block u _ _ _ _ hu) m le_rfl

variable {s : State} (halone : Alone i s)
include halone

/-- VALIDATE goes through the blocks that pass, one a step (R247). -/
theorem validate_run {k : Nat} (hk : k < s.snap.brows * s.snap.bcols)
    (hpass : ∀ m < k, pass s (rasterPos s.snap m).1 (rasterPos s.snap m).2) :
    (s.atPhase (.validate 0 0)).after k =
      some (s.atPhase (.validate (rasterPos s.snap k).1 (rasterPos s.snap k).2)) := by
  induction k with
  | zero => simp [State.after, rasterPos_zero]
  | succ k ih =>
    refine State.after_succ (ih (Nat.lt_of_succ_lt hk) fun m hm => hpass m (Nat.lt_succ_of_lt hm)) ?_
    have hnext := nextBlock_rasterPos (Nat.lt_of_succ_lt hk)
    rw [if_pos hk] at hnext
    rw [halone.step_atPhase (p := .validate _ _) nofun,
      sweep.validate _ _ _ rfl (sweep.pass_atPhase s _ _ _ (hpass k (Nat.lt_succ_self k)))]
    simp only [State.atPhase, Snapshot.afterValidate, hnext]

/-- After the last block that passes VALIDATE goes to CLEAR. -/
theorem validate_run_all {p : Capacity} (hlegal : ConfigLegal s.snap p)
    (hpass : ∀ m < s.snap.brows * s.snap.bcols, pass s (rasterPos s.snap m).1 (rasterPos s.snap m).2) :
    (s.atPhase (.validate 0 0)).after (s.snap.brows * s.snap.bcols) = some (s.atPhase .clear) := by
  have horigin := inGrid_origin hlegal
  obtain ⟨k, hk⟩ := Nat.exists_eq_add_of_lt (Nat.mul_pos horigin.1 horigin.2)
  rw [Nat.zero_add] at hk
  have hlt : k < s.snap.brows * s.snap.bcols := by omega
  rw [hk]
  refine State.after_succ (validate_run sweep halone hlt fun m hm => hpass m (hm.trans hlt)) ?_
  have hnext := nextBlock_rasterPos hlt
  rw [if_neg (by omega)] at hnext
  rw [halone.step_atPhase (p := .validate _ _) nofun,
      sweep.validate _ _ _ rfl (sweep.pass_atPhase s _ _ _ (hpass k hlt))]
  simp only [State.atPhase, Snapshot.afterValidate, hnext]

/-- The step of PROCESS at raster position `k`, the blocks before it done. -/
theorem process_step (havail : s.mem.avail = []) {k : Nat} (hk : k < s.snap.brows * s.snap.bcols)
    (hpass : pass s (rasterPos s.snap k).1 (rasterPos s.snap k).2) :
    step ((rasterSteps block s.snap s k).atPhase (.process (rasterPos s.snap k).1 (rasterPos s.snap k).2)) =
      .next (if k + 1 < s.snap.brows * s.snap.bcols then
          (rasterSteps block s.snap s (k + 1)).atPhase
            (.process (rasterPos s.snap (k + 1)).1 (rasterPos s.snap (k + 1)).2)
        else (rasterSteps block s.snap s (k + 1)).complete) := by
  have hkept := rasterSteps_kept sweep s.snap s k
  have halone_k := halone.of_hostSideKept hkept
  have hrange := rasterSteps_avail sweep s havail k
  have hcontent := rasterSteps_pass sweep s.snap hpass k
  have hsucc := rasterSteps_succ block s.snap s k
  generalize rasterSteps block s.snap s k = u at hkept halone_k hrange hcontent hsucc ⊢
  obtain ⟨-, -, -, -, -, -, hsnap, -⟩ := hkept
  have hblock : ∀ p, ((block u (rasterPos s.snap k).1 (rasterPos s.snap k).2).atPhase p).snap = s.snap := fun p => by
    obtain ⟨-, -, -, -, -, -, h, -⟩ := sweep.block_kept u (rasterPos s.snap k).1 (rasterPos s.snap k).2
    exact h.trans hsnap
  have hready : CausallyReady u (rasterPos s.snap k).1 (rasterPos s.snap k).2 := by
    refine causallyReady_of_range (hsnap ▸ (rasterPos_inGrid hk).2) ?_
    rw [hrange, hsnap, blockIndex_rasterPos]
  rw [halone_k.step_atPhase (p := .process _ _) nofun,
    sweep.process (u.atPhase _) _ _ rfl hready (sweep.pass_atPhase u _ _ _ hcontent), sweep.block_atPhase, hsucc]
  rw [State.afterProcess_rasterPos (hblock _) hk]
  rfl

/-- PROCESS makes the block steps in raster order, one a step. -/
theorem process_run (havail : s.mem.avail = [])
    (hpass : ∀ m < s.snap.brows * s.snap.bcols, pass s (rasterPos s.snap m).1 (rasterPos s.snap m).2) {k : Nat}
    (hk : k < s.snap.brows * s.snap.bcols) :
    (s.atPhase (.process 0 0)).after k =
      some ((rasterSteps block s.snap s k).atPhase (.process (rasterPos s.snap k).1 (rasterPos s.snap k).2)) := by
  induction k with
  | zero => simp [State.after, rasterPos_zero, rasterSteps_zero]
  | succ k ih =>
    have hlt := Nat.lt_of_succ_lt hk
    have hstep := process_step sweep halone havail hlt (hpass k hlt)
    rw [if_pos hk] at hstep
    exact State.after_succ (ih hlt) hstep

/-- After the last block the command is complete. -/
theorem process_run_all {p : Capacity} (hlegal : ConfigLegal s.snap p) (havail : s.mem.avail = [])
    (hpass : ∀ m < s.snap.brows * s.snap.bcols, pass s (rasterPos s.snap m).1 (rasterPos s.snap m).2) :
    (s.atPhase (.process 0 0)).after (s.snap.brows * s.snap.bcols) =
      some (rasterSteps block s.snap s (s.snap.brows * s.snap.bcols)).complete := by
  have horigin := inGrid_origin hlegal
  obtain ⟨k, hk⟩ := Nat.exists_eq_add_of_lt (Nat.mul_pos horigin.1 horigin.2)
  rw [Nat.zero_add] at hk
  have hlt : k < s.snap.brows * s.snap.bcols := by omega
  have hstep := process_step sweep halone havail hlt (hpass k hlt)
  rw [if_neg (by omega)] at hstep
  rw [hk]
  exact State.after_succ (process_run sweep halone havail hpass hlt) hstep

/-- A sweep whose checks and blocks pass, from its acceptance to its completion (R245 to R247). -/
theorem sweep_run {p : Capacity} (hstart : s.phase = .start) (hlegal : ConfigLegal s.snap p)
    (hfirst : exec i s = .next (s.atPhase (.validate 0 0)))
    (hpass : ∀ br < s.snap.brows, ∀ bc < s.snap.bcols, pass s br bc) :
    s.after (2 * (s.snap.brows * s.snap.bcols) + 2) =
      some (rasterSteps block s.snap s.clearAvail (s.snap.brows * s.snap.bcols)).complete := by
  have hpass' : ∀ m < s.snap.brows * s.snap.bcols, pass s (rasterPos s.snap m).1 (rasterPos s.snap m).2 :=
    fun m hm => hpass _ (rasterPos_inGrid hm).1 _ (rasterPos_inGrid hm).2
  have hstep : step s = .next (s.atPhase (.validate 0 0)) :=
    (halone.step (by rw [hstart]; nofun)).trans hfirst
  have hclear : step (s.atPhase .clear) = .next (s.clearAvail.atPhase (.process 0 0)) :=
    (halone.step_atPhase (p := .clear) nofun).trans (sweep.clear _ rfl)
  have hcleared : Alone i s.clearAvail := ⟨halone.command, halone.released, halone.script⟩
  have hprocess := process_run_all sweep hcleared hlegal rfl fun m hm => sweep.pass_clearAvail s _ _ (hpass' m hm)
  rw [show 2 * (s.snap.brows * s.snap.bcols) + 2 =
    s.snap.brows * s.snap.bcols + (s.snap.brows * s.snap.bcols + 1) + 1 by ring, s.after_succ_of_step hstep,
    State.after_add (validate_run_all sweep halone hlegal hpass'), State.after_succ_of_step hclear]
  exact hprocess

/-- A sweep whose first failing block is (br, bc), from its acceptance to the error (R247, R297). -/
theorem sweep_fails {br bc : Nat} {f : Failure} (hstart : s.phase = .start) (hgrid : InGrid s.snap br bc)
    (hfirst : exec i s = .next (s.atPhase (.validate 0 0)))
    (hpass : ∀ br' < s.snap.brows, ∀ bc' < s.snap.bcols, s.snap.blockIndex br' bc' < s.snap.blockIndex br bc →
      pass s br' bc')
    (hfail : exec i (s.atPhase (.validate br bc)) = .next ((s.atPhase (.validate br bc)).raise f)) :
    s.after (s.snap.blockIndex br bc + 2) = some (s.raise f) := by
  have hlt := blockIndex_lt s.snap hgrid.1 hgrid.2
  have hstep : step s = .next (s.atPhase (.validate 0 0)) :=
    (halone.step (by rw [hstart]; nofun)).trans hfirst
  have hlast : step (s.atPhase (.validate br bc)) = .next (s.raise f) :=
    (halone.step_atPhase (p := .validate br bc) nofun).trans hfail
  have hvalidate := validate_run sweep halone hlt fun m hm =>
    hpass _ (rasterPos_inGrid (hm.trans hlt)).1 _ (rasterPos_inGrid (hm.trans hlt)).2 (by rwa [blockIndex_rasterPos])
  rw [rasterPos_blockIndex s.snap hgrid.2] at hvalidate
  rw [s.after_succ_of_step hstep]
  exact State.after_succ hvalidate hlast

omit halone in
/-- The end of a sweep as the fold over the raster order, with its counters (R137, R247). -/
theorem sweep_result {p : Capacity} (hlegal : ConfigLegal s.snap p) (hnblk : s.nblk = 0#32) :
    (rasterSteps block s.snap s.clearAvail (s.snap.brows * s.snap.bcols)).complete =
        ((rasterBlocks s.snap).foldl (fun u p => block u p.1 p.2) s.clearAvail).complete ∧
      (rasterSteps block s.snap s.clearAvail (s.snap.brows * s.snap.bcols)).complete.nblk =
        BitVec.ofNat 32 (s.snap.brows * s.snap.bcols) ∧
      ∀ b, (rasterSteps block s.snap s.clearAvail (s.snap.brows * s.snap.bcols)).complete.availBit b = true ↔
        b < s.snap.brows * s.snap.bcols := by
  refine ⟨?_, ?_, fun b => ?_⟩
  · rw [rasterBlocks_eq_map s.snap (inGrid_origin hlegal).2]
    rfl
  · rw [State.complete_nblk, rasterSteps_nblk sweep, State.clearAvail_nblk, hnblk, BitVec.zero_add]
  · have havail := rasterSteps_avail sweep s.clearAvail rfl (s.snap.brows * s.snap.bcols)
    rw [State.clearAvail_snap] at havail
    simp [State.availBit, havail]

end

/-! ### The block that fails VALIDATE (R245, R246) -/

theorem exec_encp_validate_fails (s : State) {br bc : Nat} (hphase : s.phase = .validate br bc)
    (h : ¬SamplesInRange s br bc) : exec .encp s = .next (s.raise ⟨.sampleRange, br, bc⟩) :=
  (s.sweep_validate _ _ _ hphase).trans (s.checked_fail _ _ _ ((firstFailure_sampleChecks s br bc).trans (if_pos h)))

theorem exec_decp_validate_fails (s : State) {br bc : Nat} (hphase : s.phase = .validate br bc)
    (h : ¬DecodeContentPasses s br bc) :
    exec .decp s = .next (s.raise ⟨if StoredModeAllowed s br bc then .coefRange else .badMode, br, bc⟩) := by
  refine (s.sweep_validate _ _ _ hphase).trans (s.checked_fail _ _ _ ?_)
  rw [firstFailure_append, firstFailure_modeChecks, firstFailure_coefChecks]
  by_cases hmode : StoredModeAllowed s br bc
  · rw [if_neg (not_not_intro hmode), if_pos fun hcoef => h ⟨hmode, hcoef⟩, if_pos hmode]
    rfl
  · rw [if_pos hmode, if_neg hmode]
    rfl

end Sys2Proof.Machine

namespace Sys2Proof.Proofs

open Sys2Proof.Machine Sys2Proof.Safety

/-- Settles O17: START, BROWS·BCOLS checks, CLEAR and BROWS·BCOLS block steps, which are the fold. -/
theorem encpIsTheRasterSweep : Obligations.EncpIsTheRasterSweep := by
  intro s hdecode hstart hreset hscript hnblk hlegal hsamples
  have halone : Alone .encp s := ⟨hdecode, hreset, hscript⟩
  exact ⟨_, sweep_run encp_sweepCommand halone hstart hlegal (exec_encp_start_legal s hstart hlegal) hsamples,
    sweep_result encp_sweepCommand hlegal hnblk⟩

/-- Settles O18: as for ENCP, with the decoder's checks and block step. -/
theorem decpIsTheRasterSweep : Obligations.DecpIsTheRasterSweep := by
  intro s hdecode hstart hreset hscript hnblk hlegal hgeometry hcontent
  have halone : Alone .decp s := ⟨hdecode, hreset, hscript⟩
  exact ⟨_, sweep_run decp_sweepCommand halone hstart hlegal (exec_decp_start_legal s hstart hlegal hgeometry) hcontent,
    sweep_result decp_sweepCommand hlegal hnblk⟩

/-- Settles O22: START and the checks of the blocks before it change the stage alone, and the error then ends the command. -/
theorem oneBadBlockFailsTheWholeEncode : Obligations.OneBadBlockFailsTheWholeEncode := by
  intro s br bc hdecode hstart hreset hscript hlegal hgrid hbefore hbad
  exact sweep_fails encp_sweepCommand ⟨hdecode, hreset, hscript⟩ hstart hgrid (exec_encp_start_legal s hstart hlegal)
    hbefore (exec_encp_validate_fails _ rfl hbad)

/-- Settles O23: as for ENCP, with the mode check before the coefficient range check. -/
theorem oneBadBlockFailsTheWholeDecode : Obligations.OneBadBlockFailsTheWholeDecode := by
  intro s br bc hdecode hstart hreset hscript hlegal hgeometry hgrid hbefore hbad
  exact sweep_fails decp_sweepCommand ⟨hdecode, hreset, hscript⟩ hstart hgrid
    (exec_decp_start_legal s hstart hlegal hgeometry) hbefore (exec_decp_validate_fails _ rfl hbad)

end Sys2Proof.Proofs
end

section
/-! SUPPORT. A plane whose blocks are all encoded (rules R171, R173, R250): an encode sweep makes one, the host's writes
between the two sweeps and every decode block step keep one, and its DECP passes every check; for the end-to-end statement
R251. -/

namespace Sys2Proof.Machine

open Sys2Proof.Safety

/-! ### Raster order and neighbours (R136, R138) -/

/-- A block is not a neighbour of one that comes before it. -/
theorem notReadBy_of_blockIndex_lt (c : Snapshot) {br bc br' bc' : Nat} (hbc' : bc' < c.bcols)
    (h : c.blockIndex br' bc' < c.blockIndex br bc) : NotReadBy br bc br' bc' where
  above := by
    rintro ⟨rfl, rfl⟩
    exact lt_asymm h (blockIndex_rowAbove_lt c br.succ_pos hbc' le_rfl)
  before := by
    rintro ⟨rfl, rfl⟩
    exact lt_asymm h (blockIndex_left_lt c br bc.succ_pos)
  corner := by
    rintro ⟨rfl, rfl⟩
    exact lt_asymm h (blockIndex_rowAbove_lt c br.succ_pos hbc' (Nat.le_succ bc))

/-! ### An encoded block (R171, R173) -/

/-- RECON equals ORIG on the block, and MODE and COEF hold what the encoder stores for it. -/
structure BlockEncoded (s : State) (br bc : Nat) : Prop where
  recon : ∀ i < s.snap.n, ∀ j < s.snap.n,
    s.reconCell (s.snap.cellIndex br bc i j) = s.origCell (s.snap.cellIndex br bc i j)
  mode : s.modeCell (s.snap.blockIndex br bc) = (s.selectedMode br bc).tag.setWidth 8
  coef : ∀ i < s.snap.n, ∀ j < s.snap.n,
    s.coefCell (s.snap.cellIndex br bc i j) = BitVec.ofInt 32 (blockAt (s.encodeCoefficients br bc) i j)

/-- What the encoder reads and the block's own cells decide whether a block is encoded. -/
theorem BlockEncoded.congr {s u : State} {br bc : Nat} (h : BlockEncoded s br bc) (hplane : SamePlane u.snap s.snap)
    (hview : SameView s u br bc) (horig : ∀ k, u.origCell k = s.origCell k)
    (hrecon : ∀ i < s.snap.n, ∀ j < s.snap.n,
      u.reconCell (s.snap.cellIndex br bc i j) = s.reconCell (s.snap.cellIndex br bc i j))
    (hmode : u.modeCell (s.snap.blockIndex br bc) = s.modeCell (s.snap.blockIndex br bc))
    (hcoef : ∀ i < s.snap.n, ∀ j < s.snap.n,
      u.coefCell (s.snap.cellIndex br bc i j) = s.coefCell (s.snap.cellIndex br bc i j)) : BlockEncoded u br bc where
  recon i hi j hj := by
    rw [hview.n] at hi hj
    rw [hplane.cellIndex, hrecon i hi j hj, h.recon i hi j hj, horig]
  mode := by rw [hplane.blockIndex, hmode, h.mode, hview.selectedMode]
  coef i hi j hj := by
    rw [hview.n] at hi hj
    rw [hplane.cellIndex, hcoef i hi j hj, h.coef i hi j hj, hview.encodeCoefficients]

theorem samePlane_refl (c : Snapshot) : SamePlane c c := ⟨rfl, rfl, rfl⟩

section
variable {s : State} {br bc br' bc' : Nat}

/-- The encode step of a block whose neighbours are in range encodes it. -/
theorem encodeBlock_encodes (hbc : bc < s.snap.bcols) (hsamples : SamplesInRange s br bc)
    (hneighbours : NeighboursInRange s br bc) : BlockEncoded (s.encodeBlock br bc) br bc := by
  have hview := encodeBlock_sameView hbc hbc (notReadBy_self br bc)
  refine ⟨fun i hi j hj => s.encodeBlock_reconCell_eq_orig hbc hsamples hneighbours hi hj, ?_, fun i hi j hj => ?_⟩
  · rw [hview.selectedMode]
    exact s.encodeBlock_modeCell br bc
  · rw [hview.encodeCoefficients]
    exact s.encodeBlock_coefCell hbc hi hj

/-- The encode step of another block that is not a neighbour keeps a block encoded. -/
theorem BlockEncoded.encodeBlock_other (h : BlockEncoded s br' bc') (hbc : bc < s.snap.bcols)
    (hbc' : bc' < s.snap.bcols) (hread : NotReadBy br bc br' bc') (hne : ¬(br = br' ∧ bc = bc')) :
    BlockEncoded (s.encodeBlock br bc) br' bc' := by
  have hcell {i j : Nat} (hi : i < s.snap.n) (hj : j < s.snap.n) :
      ¬InBlock s.snap br bc (s.snap.cellIndex br' bc' i j) :=
    not_inBlock_of_ne s.snap hbc hbc' hne hi hj
  exact h.congr (samePlane_refl _) (encodeBlock_sameView hbc hbc' hread) (fun _ => rfl)
    (fun i hi j hj => s.encodeBlock_reconCell_other (hcell hi hj))
    (s.encodeBlock_modeCell_other fun heq => hne ((blockIndex_inj s.snap hbc' hbc heq).imp Eq.symm Eq.symm))
    (fun i hi j hj => s.encodeBlock_coefCell_other (hcell hi hj))

/-- In an encoded block whose ORIG samples are in range the RECON samples are. -/
theorem BlockEncoded.reconSample_le (h : BlockEncoded s br bc) (hsamples : SamplesInRange s br bc) {x y i j : Nat}
    (hi : i < s.snap.n) (hj : j < s.snap.n) (hindex : s.snap.sampleIndex x y = s.snap.cellIndex br bc i j) :
    s.reconSample x y ≤ s.snap.smax := by
  rw [State.reconSample, hindex, h.recon i hi j hj]
  exact hsamples i hi j hj

/-- A block's neighbours are in range when the blocks before it are encoded and in range. -/
theorem neighboursInRange_of_encoded (hgrid : InGrid s.snap br bc)
    (hsamples : ∀ a b, InGrid s.snap a b → SamplesInRange s a b)
    (hencoded : ∀ a b, InGrid s.snap a b → s.snap.blockIndex a b < s.snap.blockIndex br bc → BlockEncoded s a b) :
    NeighboursInRange s br bc := by
  obtain ⟨hbr, hbc⟩ := hgrid
  have hlast : s.snap.n - 1 < s.snap.n := Nat.pred_lt_of_lt s.snap.n_pos
  have hle {a b x y i j : Nat} (hgrid' : InGrid s.snap a b) (hlt : s.snap.blockIndex a b < s.snap.blockIndex br bc)
      (hi : i < s.snap.n) (hj : j < s.snap.n) (hindex : s.snap.sampleIndex x y = s.snap.cellIndex a b i j) :
      s.reconSample x y ≤ s.snap.smax :=
    (hencoded a b hgrid' hlt).reconSample_le (hsamples a b hgrid') hi hj hindex
  refine ⟨fun h j hj => ?_, fun h i hi => ?_, fun h h' => ?_⟩
  · exact hle ⟨by omega, hbc⟩ (blockIndex_rowAbove_lt s.snap h hbc le_rfl) hlast hj (sampleIndex_above s.snap bc j h)
  · exact hle ⟨hbr, by omega⟩ (blockIndex_left_lt s.snap br h) hi hlast (sampleIndex_before s.snap br i h)
  · exact hle ⟨by omega, by omega⟩ (blockIndex_rowAbove_lt s.snap h hbc (Nat.sub_le _ _)) hlast hlast
      (sampleIndex_corner s.snap h h')

end

/-- The block at a raster position, from its index. -/
theorem rasterPos_eq_of_blockIndex (c : Snapshot) {br bc m : Nat} (hbc : bc < c.bcols) (h : c.blockIndex br bc = m) :
    (rasterPos c m).1 = br ∧ (rasterPos c m).2 = bc := by
  rw [← h, rasterPos_blockIndex c hbc]
  exact ⟨rfl, rfl⟩

/-- After the encode steps of the first `m` blocks those blocks are encoded. -/
theorem encodeSteps_blockEncoded {s : State} (hsamples : ∀ br bc, InGrid s.snap br bc → SamplesInRange s br bc)
    {m : Nat} (hm : m ≤ s.snap.brows * s.snap.bcols) {br bc : Nat} (hgrid : InGrid s.snap br bc)
    (hlt : s.snap.blockIndex br bc < m) : BlockEncoded (rasterSteps State.encodeBlock s.snap s m) br bc := by
  induction m generalizing br bc with
  | zero => exact absurd hlt (Nat.not_lt_zero _)
  | succ m ih =>
    obtain ⟨-, -, -, -, -, -, hsnap, -⟩ := rasterSteps_kept encp_sweepCommand s.snap s m
    have hrange (a b : Nat) (h : InGrid s.snap a b) : SamplesInRange (rasterSteps State.encodeBlock s.snap s m) a b :=
      rasterSteps_pass encp_sweepCommand s.snap (hsamples a b h) m
    have hbefore {a b : Nat} := ih (Nat.le_of_succ_le hm) (br := a) (bc := b)
    rw [rasterSteps_succ]
    generalize rasterSteps State.encodeBlock s.snap s m = u at hsnap hrange hbefore
    have hpos := rasterPos_inGrid hm
    have hindex := blockIndex_rasterPos s.snap m
    rw [← hsnap] at hgrid hlt hm hrange hbefore hpos hindex ⊢
    by_cases hsame : u.snap.blockIndex br bc = m
    · obtain ⟨hbr, hbc⟩ := rasterPos_eq_of_blockIndex u.snap hgrid.2 hsame
      rw [hbr, hbc]
      refine encodeBlock_encodes hgrid.2 (hrange br bc hgrid)
        (neighboursInRange_of_encoded hgrid hrange fun a b hgrid' hlt' => hbefore hgrid' (hsame ▸ hlt'))
    · have hlt' : u.snap.blockIndex br bc < m := by omega
      refine (hbefore hgrid hlt').encodeBlock_other hpos.2 hgrid.2
        (notReadBy_of_blockIndex_lt u.snap hgrid.2 (hindex.symm ▸ hlt')) fun heq => hsame ?_
      rw [← heq.1, ← heq.2, hindex]

/-! ### An encoded plane -/

/-- Every block of the grid is in range and encoded. -/
structure PlaneEncoded (s : State) : Prop where
  samples : ∀ br bc, InGrid s.snap br bc → SamplesInRange s br bc
  blocks : ∀ br bc, InGrid s.snap br bc → BlockEncoded s br bc

/-- Two states of the same plane and metric whose ORIG, RECON, MODE and COEF cells are the same. -/
structure SameCells (s u : State) : Prop where
  plane : SamePlane u.snap s.snap
  metric : u.snap.metric = s.snap.metric
  orig : ∀ k, u.origCell k = s.origCell k
  recon : ∀ k, u.reconCell k = s.reconCell k
  mode : ∀ b, u.modeCell b = s.modeCell b
  coef : ∀ k, u.coefCell k = s.coefCell k

theorem sameCells_refl (s : State) : SameCells s s :=
  ⟨samePlane_refl _, rfl, fun _ => rfl, fun _ => rfl, fun _ => rfl, fun _ => rfl⟩

theorem sameCells_clearAvail (s : State) : SameCells s s.clearAvail :=
  ⟨samePlane_refl _, rfl, fun _ => rfl, fun _ => rfl, fun _ => rfl, fun _ => rfl⟩

theorem sameCells_complete (s : State) : SameCells s s.complete :=
  ⟨samePlane_refl _, rfl, fun _ => rfl, fun _ => rfl, fun _ => rfl, fun _ => rfl⟩

theorem SameCells.trans {s u v : State} (h : SameCells s u) (h' : SameCells u v) : SameCells s v where
  plane := ⟨h'.plane.plane.trans h.plane.plane, h'.plane.width.trans h.plane.width,
    h'.plane.height.trans h.plane.height⟩
  metric := h'.metric.trans h.metric
  orig k := (h'.orig k).trans (h.orig k)
  recon k := (h'.recon k).trans (h.recon k)
  mode b := (h'.mode b).trans (h.mode b)
  coef k := (h'.coef k).trans (h.coef k)

/-- A sample has the same cell in two configurations of the same plane. -/
theorem SamePlane.sampleIndex {c d : Snapshot} (h : SamePlane c d) (x y : Nat) :
    c.sampleIndex x y = d.sampleIndex x y := by
  rw [h.eq]
  rfl

theorem SameCells.sameView {s u : State} (h : SameCells s u) (br bc : Nat) : SameView s u br bc := by
  have hsample : u.reconSample = s.reconSample := by
    funext x y
    rw [State.reconSample, State.reconSample, h.plane.sampleIndex, h.recon]
  refine ⟨h.plane.n, h.metric, ?_, ?_⟩
  · simp only [State.origBlock, h.plane.n, h.plane.cellIndex, h.orig]
  · simp only [State.neighbours, h.plane.n, hsample]

theorem PlaneEncoded.congr {s u : State} (h : PlaneEncoded s) (hcells : SameCells s u) : PlaneEncoded u where
  samples br bc hgrid i hi j hj := by
    rw [hcells.plane.n] at hi hj
    rw [hcells.plane.cellIndex, hcells.orig, hcells.plane.smax]
    exact h.samples br bc (hcells.plane.inGrid_iff.1 hgrid) i hi j hj
  blocks br bc hgrid := (h.blocks br bc (hcells.plane.inGrid_iff.1 hgrid)).congr hcells.plane (hcells.sameView br bc)
    hcells.orig (fun _ _ _ _ => hcells.recon _) (hcells.mode _) fun _ _ _ _ => hcells.coef _

/-- An encode sweep of a plane in range leaves an encoded plane. -/
theorem encodeSteps_planeEncoded {s : State} (hsamples : ∀ br bc, InGrid s.snap br bc → SamplesInRange s br bc) :
    PlaneEncoded (rasterSteps State.encodeBlock s.snap s (s.snap.brows * s.snap.bcols)) := by
  obtain ⟨-, -, -, -, -, -, hsnap, -⟩ := rasterSteps_kept encp_sweepCommand s.snap s (s.snap.brows * s.snap.bcols)
  constructor
  · intro br bc hgrid
    rw [hsnap] at hgrid
    exact rasterSteps_pass encp_sweepCommand s.snap (hsamples br bc hgrid) _
  · intro br bc hgrid
    rw [hsnap] at hgrid
    exact encodeSteps_blockEncoded hsamples le_rfl hgrid (blockIndex_lt s.snap hgrid.1 hgrid.2)

theorem encodeSteps_origCell (c : Snapshot) (s : State) (m k : Nat) :
    (rasterSteps State.encodeBlock c s m).origCell k = s.origCell k :=
  rasterSteps_induction (P := fun _ u => u.origCell k = s.origCell k) rfl
    (fun _ _ u hu => (u.encodeBlock_origCell _ _ k).trans hu) m le_rfl

/-! ### Decoding an encoded plane (R246, R250) -/

section
variable {s : State} (hplane : PlaneEncoded s) {br bc : Nat} (hgrid : InGrid s.snap br bc)
include hplane hgrid

theorem PlaneEncoded.neighboursInRange : NeighboursInRange s br bc :=
  neighboursInRange_of_encoded hgrid hplane.samples fun a b hgrid' _ => hplane.blocks a b hgrid'

theorem PlaneEncoded.coefBlock : s.coefBlock br bc = s.encodeCoefficients br bc :=
  s.coefBlock_of_encoded s rfl (hplane.blocks br bc hgrid).coef

/-- The coefficients of residuals within ±1023 are within the decoder's limit (R207, R242). -/
theorem PlaneEncoded.coefficientsInRange : CoefficientsInRange s br bc := by
  intro i hi j hj
  have hresidual : ∀ k < s.snap.n, ∀ l < s.snap.n, |blockAt (s.encodeResidual br bc) k l| ≤ 1023 := fun _ hk _ hl =>
    s.abs_encodeResidual_le (hplane.samples br bc hgrid) (hplane.neighboursInRange hgrid) hk hl
  have hcell : (s.coefCell (s.snap.cellIndex br bc i j)).toInt = blockAt (s.encodeCoefficients br bc) i j := by
    rw [← hplane.coefBlock hgrid, State.coefBlock, blockAt_blockOf _ _ hi hj]
  rw [hcell, State.encodeCoefficients]
  rcases s.snap.n_cases with hn | hn <;> rw [hn] at hresidual hi hj ⊢
  · exact abs_fdct_le basis8_row_abs_sum_le hresidual (by norm_num) hi hj
  · exact abs_fdct_le basis16_row_abs_sum_le hresidual (by norm_num) hi hj

theorem PlaneEncoded.decodeContentPasses : DecodeContentPasses s br bc :=
  ⟨s.storedModeAllowed_of_modeCell (s.selectedMode_allowed br bc) (hplane.blocks br bc hgrid).mode,
    hplane.coefficientsInRange hgrid⟩

/-- The decode step of a block rebuilds the samples that are already there. -/
theorem PlaneEncoded.decodeBlock_reconCell (k : Nat) : (s.decodeBlock br bc).reconCell k = s.reconCell k := by
  by_cases hk : InBlock s.snap br bc k
  · obtain ⟨i, hi, j, hj, rfl⟩ := hk
    have hblock := hplane.blocks br bc hgrid
    rw [s.decodeBlock_reconCell hgrid.2 hi hj, hblock.recon i hi j hj,
      decodeReconstruction_of_encoded rfl rfl rfl (s.storedMode_of_modeCell hblock.mode) (hplane.coefBlock hgrid),
      s.encodeReconstruction_at (hplane.samples br bc hgrid) (hplane.neighboursInRange hgrid) hi hj,
      BitVec.ofInt_natCast, BitVec.ofNat_toNat, BitVec.setWidth_eq]
  · exact s.decodeBlock_reconCell_other hk

theorem PlaneEncoded.decodeBlock_sameCells : SameCells s (s.decodeBlock br bc) :=
  ⟨samePlane_refl _, rfl, s.decodeBlock_origCell br bc, hplane.decodeBlock_reconCell hgrid, s.decodeBlock_modeCell br bc,
    s.decodeBlock_coefCell br bc⟩

end

/-- A decode sweep of an encoded plane changes no sample. -/
theorem PlaneEncoded.decodeSteps_sameCells {s : State} (hplane : PlaneEncoded s) :
    SameCells s (rasterSteps State.decodeBlock s.snap s (s.snap.brows * s.snap.bcols)) :=
  rasterSteps_induction (P := fun _ u => SameCells s u) (sameCells_refl s)
    (fun _ hm _ hu => hu.trans ((hplane.congr hu).decodeBlock_sameCells (hu.plane.inGrid_iff.2 (rasterPos_inGrid hm))))
    _ le_rfl

/-- In an encoded plane RECON equals ORIG at every sample (R135, R173). -/
theorem PlaneEncoded.reconCell_eq {s : State} (hplane : PlaneEncoded s) {p : Capacity} (hlegal : ConfigLegal s.snap p)
    {x y : Nat} (hx : x < s.snap.w) (hy : y < s.snap.h) :
    s.reconCell (s.snap.sampleIndex x y) = s.origCell (s.snap.sampleIndex x y) := by
  obtain ⟨-, -, -, hw, hh, -, -⟩ := hlegal
  have hgrid := inGrid_of_sample s.snap (Nat.div_mul_cancel (Nat.dvd_of_mod_eq_zero hw))
    (Nat.div_mul_cancel (Nat.dvd_of_mod_eq_zero hh)) hx hy
  obtain ⟨i, hi, j, hj, hindex⟩ := (block_covers_iff_eq_div s.snap hgrid.2 hx).2 ⟨rfl, rfl⟩
  rw [← hindex]
  exact (hplane.blocks _ _ hgrid).recon i hi j hj

/-! ### GEOMSET and DECP (R111, R140) -/

/-- The word GEOMSET writes. -/
def geomWord (bcols brows : Nat) : Word := BitVec.ofNat 32 brows <<< 16 ||| BitVec.ofNat 32 bcols

theorem geomWord_toNat {bcols brows : Nat} (hcols : bcols < 65536) (hrows : brows < 65536) :
    (geomWord bcols brows).toNat = brows * 65536 + bcols := by
  have hshift : brows <<< 16 = brows * 65536 := Nat.shiftLeft_eq brows 16
  rw [geomWord, BitVec.toNat_or, BitVec.toNat_shiftLeft, BitVec.toNat_ofNat, BitVec.toNat_ofNat,
    Nat.mod_eq_of_lt (by omega), Nat.mod_eq_of_lt (show brows < 2 ^ 32 by omega), Nat.mod_eq_of_lt (by omega),
    ← Nat.shiftLeft_add_eq_or_of_lt (by omega), hshift]

theorem Snapshot.bcols_lt (c : Snapshot) : c.bcols < 65536 :=
  (Nat.div_le_self _ _).trans_lt (c.w_eq ▸ Nat.mod_lt _ (by decide))

theorem Snapshot.brows_lt (c : Snapshot) : c.brows < 65536 :=
  (Nat.div_le_self _ _).trans_lt (c.h_eq ▸ Nat.mod_lt _ (by decide))

/-- GEOM as GEOMSET writes it records the counts (R140). -/
theorem geometryRecorded_of_geomWord {c : Snapshot} (hgeom : c.geom = geomWord c.bcols c.brows) :
    GeometryRecorded c := by
  have hcols := c.bcols_lt
  rw [GeometryRecorded, c.bcolsRec_eq, c.browsRec_eq, hgeom, geomWord_toNat hcols c.brows_lt]
  omega

/-- The state after GEOMSET of these counts and the acceptance of DECP, with the host's script at its end. -/
def State.decpIssued (s : State) (bcols brows : Nat) : State :=
  (({ s with geom := geomWord bcols brows } : State).accept (encode .decp)).withHost [] ([.done, .done] ++ s.answers)

/-- GEOMSET and then DECP, on an idle unit without an error: GEOM is written and the command accepted (R26, R130). -/
theorem State.after_geomset_decp (s : State) (bcols brows : Nat) (hidle : s.busy = false) (herr : s.status.err = false)
    (hreset : s.resetLine = false) :
    (s.withScript (hostGeomset bcols brows ++ [hostCmd .decp])).after 2 = some (s.decpIssued bcols brows) := by
  have hrun := (s.withScript (hostGeomset bcols brows ++ [hostCmd .decp])).after_hostWrites
    [(0x014#32, geomWord bcols brows), (0x018#32, encode .decp)] (by simp [RegisterAddress]) hreset rfl
  refine hrun.trans (congrArg some ?_)
  have hself : s.withScript (hostGeomset bcols brows ++ [hostCmd .decp]) =
      s.withHost (hostGeomset bcols brows ++ [hostCmd .decp]) s.answers := rfl
  rw [hself, State.writeRegisters_withHost, State.withHost_withHost]
  have hgeom : s.writeRegister 0x014 (geomWord bcols brows) = { s with geom := geomWord bcols brows } :=
    s.writeRegister_geom _ hidle
  exact congrArg (State.withHost · [] ([.done, .done] ++ s.answers))
    ((congrArg (State.issue (encode .decp)) hgeom).trans (State.issue_accepted _ _ hidle herr))

section
variable (s : State) (bcols brows : Nat)

theorem State.decpIssued_phase : (s.decpIssued bcols brows).phase = .start := rfl

theorem State.decpIssued_capacity : (s.decpIssued bcols brows).capacity = s.capacity := rfl

theorem State.decpIssued_snap :
    (s.decpIssued bcols brows).snap = { s.liveConfig with geom := geomWord bcols brows } := rfl

theorem State.decpIssued_alone (hreset : s.resetLine = false) : Alone .decp (s.decpIssued bcols brows) :=
  ⟨decode_encode .decp rfl, hreset, rfl⟩

/-- GEOM and LASTCMD aside the issue of DECP changes nothing that an encoded plane rests on. -/
theorem State.decpIssued_sameCells (hlive : s.snap = s.liveConfig) : SameCells s (s.decpIssued bcols brows) := by
  have hplane : SamePlane (s.decpIssued bcols brows).snap s.snap := hlive ▸ ⟨rfl, rfl, rfl⟩
  have hmetric : (s.decpIssued bcols brows).snap.metric = s.snap.metric := hlive ▸ rfl
  exact ⟨hplane, hmetric, fun _ => rfl, fun _ => rfl, fun _ => rfl, fun _ => rfl⟩

end

/-! ### The two sweeps -/

/-- ENCP of a plane in range ends with an encoded plane (R245, R247). -/
theorem encp_planeEncoded {s : State} (halone : Alone .encp s) (hstart : s.phase = .start)
    (hlegal : ConfigLegal s.snap s.capacity)
    (hsamples : ∀ br < s.snap.brows, ∀ bc < s.snap.bcols, SamplesInRange s br bc) :
    ∃ t, s.after (2 * (s.snap.brows * s.snap.bcols) + 2) = some t ∧ t.busy = false ∧
      t.status = { s.status with done := true } ∧ HostSideKept s t ∧ PlaneEncoded t ∧
      ∀ k, t.origCell k = s.origCell k := by
  have hrun := sweep_run encp_sweepCommand halone hstart hlegal (exec_encp_start_legal s hstart hlegal) hsamples
  have hplane := encodeSteps_planeEncoded (s := s.clearAvail) fun br bc h => hsamples br h.1 bc h.2
  have hstatus := rasterSteps_status encp_sweepCommand s.snap s.clearAvail (s.snap.brows * s.snap.bcols)
  refine ⟨_, hrun, rfl, ?_, rasterSteps_kept encp_sweepCommand s.snap s.clearAvail _,
    hplane.congr (sameCells_complete _), encodeSteps_origCell s.snap s.clearAvail _⟩
  rw [State.complete_status, hstatus]
  rfl

/-- DECP of an encoded plane whose geometry is recorded ends with the same samples (R246, R250). -/
theorem decp_planeEncoded {s : State} (halone : Alone .decp s) (hstart : s.phase = .start)
    (hlegal : ConfigLegal s.snap s.capacity) (hgeometry : GeometryRecorded s.snap) (hplane : PlaneEncoded s) :
    ∃ t, s.after (2 * (s.snap.brows * s.snap.bcols) + 2) = some t ∧ t.busy = false ∧ t.status.done = true ∧
      SameCells s t := by
  have hrun := sweep_run decp_sweepCommand halone hstart hlegal (exec_decp_start_legal s hstart hlegal hgeometry)
    fun _ hbr _ hbc => hplane.decodeContentPasses ⟨hbr, hbc⟩
  have hcells := (hplane.congr (sameCells_clearAvail s)).decodeSteps_sameCells
  exact ⟨_, hrun, rfl, rfl, (sameCells_clearAvail s).trans (hcells.trans (sameCells_complete _))⟩

end Sys2Proof.Machine

namespace Sys2Proof.Proofs

open Sys2Proof.Machine Sys2Proof.Safety

/-- Settles O49: the encode sweep leaves an encoded plane, GEOMSET and the acceptance of DECP keep it one, so DECP passes
its checks and writes the samples that are there. -/
theorem encodeThenDecodeIsLossless : Obligations.EncodeThenDecodeIsLossless := by
  intro s hdecode hstart hreset hscript _ hcurrent herr hlegal hsamples
  obtain ⟨t, hencode, hidle, hstatus, hkept, hplane, horig⟩ :=
    encp_planeEncoded ⟨hdecode, hreset, hscript⟩ hstart hlegal hsamples
  have hlive : s.snap = t.liveConfig :=
    (hcurrent (s.busy_eq_true_iff.2 (by rw [hstart]; nofun))).trans (liveConfig_of_hostSideKept hkept).symm
  obtain ⟨-, -, -, -, -, -, hsnap, hcapacity, hresetLine, -⟩ := hkept
  have haccept := t.after_geomset_decp s.snap.bcols s.snap.brows hidle (by rw [hstatus]; exact herr)
    (hresetLine.trans hreset)
  have halone := t.decpIssued_alone s.snap.bcols s.snap.brows (hresetLine.trans hreset)
  have hphase := t.decpIssued_phase s.snap.bcols s.snap.brows
  have hcells := t.decpIssued_sameCells s.snap.bcols s.snap.brows (hsnap.trans hlive)
  have hcapacity' := (t.decpIssued_capacity s.snap.bcols s.snap.brows).trans hcapacity
  have hsnap' := t.decpIssued_snap s.snap.bcols s.snap.brows
  rw [← hlive] at hsnap'
  generalize t.decpIssued s.snap.bcols s.snap.brows = u at haccept halone hphase hcells hcapacity' hsnap'
  have hlegal' : ConfigLegal u.snap u.capacity := by
    rw [hsnap', hcapacity']
    exact hlegal
  have hgeometry : GeometryRecorded u.snap := by
    rw [hsnap']
    exact geometryRecorded_of_geomWord rfl
  obtain ⟨v, hdecodes, hidle', hdone', hcells'⟩ :=
    decp_planeEncoded halone hphase hlegal' hgeometry (hplane.congr hcells)
  refine ⟨t, v, hencode, hidle, by rw [hstatus], ?_, hidle', hdone', fun x hx y hy => ?_⟩
  · have hcount : 2 * (s.snap.brows * s.snap.bcols) + 4 = 2 + (2 * (u.snap.brows * u.snap.bcols) + 2) := by
      have hgrid : u.snap.brows * u.snap.bcols = s.snap.brows * s.snap.bcols := by
        rw [hsnap']
        rfl
      omega
    rw [hcount, State.after_add haccept, hdecodes]
  · have hlossless : t.reconCell (s.snap.sampleIndex x y) = s.origCell (s.snap.sampleIndex x y) := by
      rw [← horig, ← hsnap]
      exact hplane.reconCell_eq (hsnap ▸ hlegal) (hsnap ▸ hx) (hsnap ▸ hy)
    exact ⟨hlossless, by rw [hcells'.recon, hcells.recon, hlossless]⟩

end Sys2Proof.Proofs
end
